-- ==== Sys2Proof/Word.lean ====
section
/-! DEFINITION. The widths the spec fixes: bytes on the expander bus, the 7-bit and 8-bit halves of an
expander register address, the 32-bit command word and the 16-bit response word (00_scope.md R7, R10;
30_encoding.md R90, R96). -/

namespace Sys2Proof

/-- One byte: the control word, a data-port value, an operand field (R7). Bit 0 is the least significant (R8). -/
abbrev Byte := BitVec 8

/-- A 7-bit I2C device address (R7, R10). -/
abbrev DevAddr := BitVec 7

/-- An 8-bit expander register address (R10). -/
abbrev RegAddr := BitVec 8

/-- The host's command word, `OP SUB M V B` (R90). -/
abbrev CmdWord := BitVec 32

/-- The block's response word (R96). -/
abbrev RespWord := BitVec 16

end Sys2Proof
end

