-- ==== Sys2Proof/Config.lean ====
section
/-! DEFINITION. What is fixed for one machine (the parameters of 00_scope.md R6) and the values the spec
leaves open. The parameters form a `Board`, a value of plain data that is well formed by construction;
State carries one, so a claim about every state is a claim about every configuration the spec admits.
The free values at the end are opaque: nothing can be proved about which value they have. -/

namespace Sys2Proof

/-- The eight control signals, in the order of their ids 0 to 7 (R20). -/
inductive Signal
  | rst | csn | rs0 | rs1 | rnw | ss | lspd | lrst
  deriving DecidableEq, Repr, Inhabited

/-- The 3-bit signal id of R20. -/
def Signal.id : Signal → Nat
  | .rst => 0 | .csn => 1 | .rs0 => 2 | .rs1 => 3
  | .rnw => 4 | .ss => 5 | .lspd => 6 | .lrst => 7

/-- Every signal, by rising id (R20: exactly eight). -/
def Signal.all : List Signal := [.rst, .csn, .rs0, .rs1, .rnw, .ss, .lspd, .lrst]

/-- A SignalMap: the control-port bit of each signal (R24). -/
structure SignalMap where
  rst  : Fin 8
  csn  : Fin 8
  rs0  : Fin 8
  rs1  : Fin 8
  rnw  : Fin 8
  ss   : Fin 8
  lspd : Fin 8
  lrst : Fin 8
  deriving DecidableEq, Repr, Inhabited

/-- The lookup of R24. It is total: no signal is unknown (R28). -/
def SignalMap.bitOf (m : SignalMap) : Signal → Fin 8
  | .rst => m.rst | .csn => m.csn | .rs0 => m.rs0 | .rs1 => m.rs1
  | .rnw => m.rnw | .ss => m.ss | .lspd => m.lspd | .lrst => m.lrst

/-- The default of `SIGMAP_A`: bit = id (R26). -/
def SignalMap.identity : SignalMap := ⟨0, 1, 2, 3, 4, 5, 6, 7⟩

/-- R25: bit positions are unique. -/
def SignalMap.injective (m : SignalMap) : Bool := decide (Signal.all.map m.bitOf).Nodup

/-- The link speeds of R38: 10 and 20 Mbit/s. -/
inductive LinkSpeed
  | mbit10 | mbit20
  deriving DecidableEq, Repr, Inhabited

/-- The protocol variant (R3). -/
inductive Variant
  | a | b
  deriving DecidableEq, Repr, Inhabited

/-- An access selector: an adapter register with a direction (R30). -/
inductive Selector
  | idrRd | odrWr | isrRd | isrWr | osrRd | osrWr
  deriving DecidableEq, Repr, Inhabited

/-- The levels of RS1, RS0, RNW and SS that step (a) of an access writes (R31). -/
structure SelectLevels where
  rs1 : Bool
  rs0 : Bool
  rnw : Bool
  ss  : Bool
  deriving DecidableEq, Repr, Inhabited

/-- The configuration table `REGSEL` (R31). -/
structure RegSel where
  idrRd : SelectLevels
  odrWr : SelectLevels
  isrRd : SelectLevels
  isrWr : SelectLevels
  osrRd : SelectLevels
  osrWr : SelectLevels
  deriving DecidableEq, Repr, Inhabited

/-- `REGSEL[sel]`. -/
def RegSel.levels (t : RegSel) : Selector → SelectLevels
  | .idrRd => t.idrRd | .odrWr => t.odrWr | .isrRd => t.isrRd
  | .isrWr => t.isrWr | .osrRd => t.osrRd | .osrWr => t.osrWr

/-- The default table of R31. -/
def RegSel.standard : RegSel where
  idrRd := ⟨false, false, true, false⟩
  odrWr := ⟨false, true, false, false⟩
  isrRd := ⟨true, false, true, true⟩
  isrWr := ⟨true, false, false, true⟩
  osrRd := ⟨true, true, true, true⟩
  osrWr := ⟨true, true, false, true⟩

/-- An address of the expander register space (R10, R60). -/
structure ExpAddr where
  dev : DevAddr
  reg : RegAddr
  deriving DecidableEq, Repr, Inhabited

/-- The address as one number, the key of its memory cell: the device address above the register address. -/
def ExpAddr.key (a : ExpAddr) : Nat := a.dev.toNat * 256 + a.reg.toNat

/-- The six named registers of R60. -/
inductive Reg
  | dirData | olatData | inData | dirCtrl | olatCtrl | inCtrl
  deriving DecidableEq, Repr, Inhabited

/-- Every named register of R60. -/
def Reg.all : List Reg := [.dirData, .olatData, .inData, .dirCtrl, .olatCtrl, .inCtrl]

/-- The implementation parameters of R6. -/
structure Params where
  variant          : Variant
  sigmapA          : SignalMap
  sigmapB          : SignalMap
  devData          : DevAddr
  devCtrl          : DevAddr
  regDirData       : RegAddr
  regOlatData      : RegAddr
  regInData        : RegAddr
  regDirCtrl       : RegAddr
  regOlatCtrl      : RegAddr
  regInCtrl        : RegAddr
  dirAllIn         : Byte
  dirAllOut        : Byte
  /-- `STROBE_HOLD` in microseconds (R258). -/
  strobeHold       : Nat
  defaultLinkSpeed : LinkSpeed
  regsel           : RegSel
  /-- `EXP_OLAT_RESET`, what the control latch holds before the block's first write of it (R62, R241). -/
  expOlatReset     : Byte
  deriving DecidableEq, Repr, Inhabited

/-- The address of a named register (R60). -/
def Params.addr (p : Params) : Reg → ExpAddr
  | .dirData => ⟨p.devData, p.regDirData⟩
  | .olatData => ⟨p.devData, p.regOlatData⟩
  | .inData => ⟨p.devData, p.regInData⟩
  | .dirCtrl => ⟨p.devCtrl, p.regDirCtrl⟩
  | .olatCtrl => ⟨p.devCtrl, p.regOlatCtrl⟩
  | .inCtrl => ⟨p.devCtrl, p.regInCtrl⟩

/-- The active SignalMap (R24). -/
def Params.sigmap (p : Params) : SignalMap :=
  match p.variant with
  | .a => p.sigmapA
  | .b => p.sigmapB

/-- R25: both maps are injective. -/
def Params.mapsOk (p : Params) : Bool := p.sigmapA.injective && p.sigmapB.injective

/-- R6, 90_conflicts.md C9: one expander in variant A, two in variant B. -/
def Params.devicesOk (p : Params) : Bool :=
  match p.variant with
  | .a => p.devData == p.devCtrl
  | .b => p.devData != p.devCtrl

/-- DEDUCED from R60 (log 5): the six named registers stand at six different addresses. -/
def Params.addressesOk (p : Params) : Bool := decide (Reg.all.map p.addr).Nodup

/-- DEDUCED from R6 (log 5): all-inputs and all-outputs are different direction values. -/
def Params.directionsOk (p : Params) : Bool := p.dirAllIn != p.dirAllOut

/-- R6: the strobe hold is at least 1 µs. -/
def Params.holdOk (p : Params) : Bool := decide (1 ≤ p.strobeHold)

/-- A configuration the model has a meaning for (R6, R25). -/
def Params.wf (p : Params) : Bool :=
  p.mapsOk && p.devicesOk && p.addressesOk && p.directionsOk && p.holdOk

/-- A configuration with every parameter at the default R6 gives it; the parameters R6 leaves OPEN hold
example values that no rule of the spec and no obligation relies on. The tests run on it. -/
def Params.standard : Params where
  variant := .a
  sigmapA := .identity
  sigmapB := .identity
  devData := 0x20
  devCtrl := 0x20
  regDirData := 0x00
  regOlatData := 0x14
  regInData := 0x12
  regDirCtrl := 0x01
  regOlatCtrl := 0x15
  regInCtrl := 0x13
  dirAllIn := 0xFF
  dirAllOut := 0x00
  strobeHold := 1
  defaultLinkSpeed := .mbit10
  regsel := .standard
  expOlatReset := 0x00

/-- A well-formed configuration. R25 refuses any other: the model has no meaning for it, so none can be built. -/
structure Board where
  raw : Params := .standard
  ok  : raw.wf = true := by decide
  deriving DecidableEq, Repr, Inhabited

/-- R25: an ill-formed configuration is refused. -/
def Board.check (p : Params) : Option Board := if h : p.wf = true then some ⟨p, h⟩ else none

/-- The address of a named register on this board (R60). -/
def Board.addr (b : Board) (r : Reg) : ExpAddr := b.raw.addr r

/-- `SIG(s)`: the control-port bit of a signal (R15, R24). -/
def Board.sig (b : Board) (x : Signal) : Fin 8 := b.raw.sigmap.bitOf x

/-- What the environment decides about one bus transaction: whether it fails (R12), whether a failing
write reached the register all the same (R206), and what the data pins show (R69). -/
structure BusDraw where
  fails : Bool
  lands : Bool
  pins  : Byte
  deriving DecidableEq, Repr, Inhabited

namespace Config

/-- FREE VALUE (log 1): the machine's configuration. Every parameter R6 marks OPEN is open here; only that
the configuration is well formed can be proved. -/
opaque board : Board

/-- FREE VALUE (log 2): what the environment decides about the n-th transaction since reset, where State
lists no answer for it (R12, R69, R206). -/
opaque freeDraw : Nat → BusDraw

/-- FREE VALUE (log 3): `SHADOW` after power-on, "any byte" (R44, R240). -/
opaque shadowPowerOn : Byte

/-- FREE VALUE (log 4): what an expander register holds before the block's first write of it, by address
key (R241: any value). The control latch has `EXP_OLAT_RESET` instead (R62). -/
opaque powerOnRegister : Nat → Byte

end Config

end Sys2Proof
end

