-- ==== Sys2Proof/Syntax.lean ====
section
/-! DEFINITION. The commands (30_encoding.md R91), one constructor per row of the opcode table, and the
assembler's lines (R100, R101), which include the pseudo-instructions. -/

namespace Sys2Proof

/-- A command. The operand fields have the widths of R90, and every value of them is a legal encoding (R98). -/
inductive Instr
  /-- RDDATA: read the data port (R120). -/
  | rddata
  /-- WRDATA b: drive a byte onto the data port (R122). -/
  | wrdata (b : Byte)
  /-- SETSIG: give the signals named by m the levels v (R125). -/
  | setsig (m v : Byte)
  /-- STROBE: invert the one signal named by m and hold it (R130). -/
  | strobe (m : Byte)
  /-- RELDATA: return the data port to input (R135). -/
  | reldata
  /-- RDSHADOW: read the shadow control word (R140). -/
  | rdshadow
  /-- LINKINIT n: construct the Link at speed n (R160). -/
  | linkinit (b : Byte)
  /-- LINKINITD: construct the Link at the default speed (R162). -/
  | linkinitd
  /-- DATAPRESENT: is a received byte waiting? (R165) -/
  | datapresent
  /-- OUTPUTREADY: can the adapter take a byte? (R167) -/
  | outputready
  /-- INTEN: enable the adapter's interrupts (R170). -/
  | inten
  /-- INTDIS: disable the adapter's interrupts (R172). -/
  | intdis
  /-- WRITE b: send a byte (R175). -/
  | write (b : Byte)
  /-- READ: fetch a byte (R178). -/
  | read
  /-- RESET: pulse LinkResetLine (R181). -/
  | reset
  /-- RESETLVL l: hold LinkResetLine at a level (R183). -/
  | resetlvl (l : Bool)
  deriving DecidableEq, Repr

/-- One line of the assembler (R100), the pseudo-instructions of R101 among them. Numbers are as the
programmer writes them; `Source.wf` says which of them assemble. -/
inductive Source
  | rddata | reldata | rdshadow | linkinitd | datapresent | outputready | inten | intdis | read | reset
  | wrdata (b : Nat)
  | write (b : Nat)
  | linkinit (n : Nat)
  | resetlvl (l : Nat)
  | setsig (levels : List (Signal × Nat))
  | strobe (names : List Signal)
  | pulse (s : Signal)
  | assertSig (s : Signal)
  | deassertSig (s : Signal)
  | nop
  deriving DecidableEq, Repr

end Sys2Proof
end

