-- ==== Sys2Proof/WellFormed.lean ====
section
/-! DEFINITION. Well-formedness. A command needs no check of its own: its fields have the encoding's
widths and every value is legal (30_encoding.md R98), so the checks are on assembler lines (R100) and, in
Config.lean, on the configuration (`Params.wf`, R6 and R25). -/

namespace Sys2Proof

/-- R100: a byte operand, 0 to 255. -/
def byteOk (n : Nat) : Bool := decide (n < 256)

/-- R100: a level, 0 or 1. -/
def levelOk (n : Nat) : Bool := decide (n < 2)

/-- R100, SETSIG: each level is 0 or 1 and a name appears once. The empty list is legal. -/
def namedLevelsOk (l : List (Signal × Nat)) : Bool :=
  decide (l.map Prod.fst).Nodup && l.all fun p => levelOk p.2

/-- Which assembler lines assemble (R100). STROBE with zero or several names does: it is rejected when executed. -/
def Source.wf : Source → Bool
  | .wrdata b | .write b | .linkinit b => byteOk b
  | .resetlvl l => levelOk l
  | .setsig l => namedLevelsOk l
  | .rddata | .reldata | .rdshadow | .linkinitd | .datapresent | .outputready | .inten | .intdis
  | .read | .reset | .strobe _ | .pulse _ | .assertSig _ | .deassertSig _ | .nop => true

end Sys2Proof
end

