-- ==== Sys2Proof/Decode.lean ====
section
/-! DEFINITION. Decoding (30_encoding.md R90 to R99), the encoder, the rows of the opcode table (R102) and
the assembler (R100, R101). -/

namespace Sys2Proof

/-- `cmd.OP`, bits 31:28 (R90). -/
def opField (w : CmdWord) : BitVec 4 := w.extractLsb' 28 4

/-- `cmd.SUB`, bits 27:24 (R90, R95). -/
def subField (w : CmdWord) : BitVec 4 := w.extractLsb' 24 4

/-- `cmd.M`, bits 23:16 (R90). -/
def maskField (w : CmdWord) : Byte := w.extractLsb' 16 8

/-- `cmd.V`, bits 15:8 (R90). -/
def valueField (w : CmdWord) : Byte := w.extractLsb' 8 8

/-- `cmd.B`, bits 7:0 (R90). -/
def byteField (w : CmdWord) : Byte := w.extractLsb' 0 8

/-- Why a word is no legal command: the first of its must-be-zero fields, from the top, that is not 0
(R97, response IllegalCommand). -/
inductive DecodeError
  | subNotZero | maskNotZero | valuesNotZero | byteNotZero
  deriving DecidableEq, Repr

/-- Format `N` of R102: no operand, so M, V and B must be 0. -/
def decodeN (i : Instr) (w : CmdWord) : Except DecodeError Instr :=
  if maskField w ≠ 0 then .error .maskNotZero
  else if valueField w ≠ 0 then .error .valuesNotZero
  else if byteField w ≠ 0 then .error .byteNotZero
  else .ok i

/-- Format `B` of R102: the byte operand, so M and V must be 0. -/
def decodeB (i : Byte → Instr) (w : CmdWord) : Except DecodeError Instr :=
  if maskField w ≠ 0 then .error .maskNotZero
  else if valueField w ≠ 0 then .error .valuesNotZero
  else .ok (i (byteField w))

/-- Format `MV` of R102: the mask and the values, so B must be 0. -/
def decodeMV (i : Byte → Byte → Instr) (w : CmdWord) : Except DecodeError Instr :=
  if byteField w ≠ 0 then .error .byteNotZero
  else .ok (i (maskField w) (valueField w))

/-- Format `M` of R102: the mask, so V and B must be 0. -/
def decodeM (i : Byte → Instr) (w : CmdWord) : Except DecodeError Instr :=
  if valueField w ≠ 0 then .error .valuesNotZero
  else if byteField w ≠ 0 then .error .byteNotZero
  else .ok (i (maskField w))

/-- Format `L` of R102: the level in B[0], so M, V and B[7:1] must be 0. -/
def decodeL (i : Bool → Instr) (w : CmdWord) : Except DecodeError Instr :=
  if maskField w ≠ 0 then .error .maskNotZero
  else if valueField w ≠ 0 then .error .valuesNotZero
  else if byteField w = 0 then .ok (i false)
  else if byteField w = 1 then .ok (i true)
  else .error .byteNotZero

/-- Decoding (R91, R97): total on every word, and a word with a must-be-zero field that is not 0 is rejected. -/
def decode (w : CmdWord) : Except DecodeError Instr :=
  if subField w ≠ 0 then .error .subNotZero
  else match (opField w).toNat with
    | 0x0 => decodeN .rddata w
    | 0x1 => decodeB .wrdata w
    | 0x2 => decodeMV .setsig w
    | 0x3 => decodeM .strobe w
    | 0x4 => decodeN .reldata w
    | 0x5 => decodeN .rdshadow w
    | 0x6 => decodeB .linkinit w
    | 0x7 => decodeN .linkinitd w
    | 0x8 => decodeN .datapresent w
    | 0x9 => decodeN .outputready w
    | 0xA => decodeN .inten w
    | 0xB => decodeN .intdis w
    | 0xC => decodeB .write w
    | 0xD => decodeN .read w
    | 0xE => decodeN .reset w
    | _ => decodeL .resetlvl w

/-- A command word from its fields, SUB at 0 (R90, R95). -/
def packWord (op : BitVec 4) (m v b : Byte) : CmdWord := op ++ (0 : BitVec 4) ++ m ++ v ++ b

/-- The word of a command (R91). -/
def encode : Instr → CmdWord
  | .rddata => packWord 0x0 0 0 0
  | .wrdata b => packWord 0x1 0 0 b
  | .setsig m v => packWord 0x2 m v 0
  | .strobe m => packWord 0x3 m 0 0
  | .reldata => packWord 0x4 0 0 0
  | .rdshadow => packWord 0x5 0 0 0
  | .linkinit b => packWord 0x6 0 0 b
  | .linkinitd => packWord 0x7 0 0 0
  | .datapresent => packWord 0x8 0 0 0
  | .outputready => packWord 0x9 0 0 0
  | .inten => packWord 0xA 0 0 0
  | .intdis => packWord 0xB 0 0 0
  | .write b => packWord 0xC 0 0 b
  | .read => packWord 0xD 0 0 0
  | .reset => packWord 0xE 0 0 0
  | .resetlvl l => packWord 0xF 0 0 (if l then 1 else 0)

/-- A row of the opcode table: a word is the row's command when `word & mask = match` (R97, R102). -/
structure OpRow where
  mnemonic : String
  mask     : CmdWord
  pattern  : CmdWord
  deriving DecidableEq, Repr

/-- The opcode table, copied from opcode_table.json (R102). -/
def opcodeTable : List OpRow :=
  [ ⟨"RDDATA", 0xFFFFFFFF, 0x00000000⟩,
    ⟨"WRDATA", 0xFFFFFF00, 0x10000000⟩,
    ⟨"SETSIG", 0xFF0000FF, 0x20000000⟩,
    ⟨"STROBE", 0xFF00FFFF, 0x30000000⟩,
    ⟨"RELDATA", 0xFFFFFFFF, 0x40000000⟩,
    ⟨"RDSHADOW", 0xFFFFFFFF, 0x50000000⟩,
    ⟨"LINKINIT", 0xFFFFFF00, 0x60000000⟩,
    ⟨"LINKINITD", 0xFFFFFFFF, 0x70000000⟩ ] ++
  [ ⟨"DATAPRESENT", 0xFFFFFFFF, 0x80000000⟩,
    ⟨"OUTPUTREADY", 0xFFFFFFFF, 0x90000000⟩,
    ⟨"INTEN", 0xFFFFFFFF, 0xA0000000⟩,
    ⟨"INTDIS", 0xFFFFFFFF, 0xB0000000⟩,
    ⟨"WRITE", 0xFFFFFF00, 0xC0000000⟩,
    ⟨"READ", 0xFFFFFFFF, 0xD0000000⟩,
    ⟨"RESET", 0xFFFFFFFF, 0xE0000000⟩,
    ⟨"RESETLVL", 0xFFFFFFFE, 0xF0000000⟩ ]

/-- The test of R97 for one row. -/
def OpRow.accepts (r : OpRow) (w : CmdWord) : Bool := w &&& r.mask == r.pattern

/-- A command's mnemonic (R91). -/
def mnemonic : Instr → String
  | .rddata => "RDDATA" | .wrdata _ => "WRDATA" | .setsig _ _ => "SETSIG" | .strobe _ => "STROBE"
  | .reldata => "RELDATA" | .rdshadow => "RDSHADOW" | .linkinit _ => "LINKINIT" | .linkinitd => "LINKINITD"
  | .datapresent => "DATAPRESENT" | .outputready => "OUTPUTREADY" | .inten => "INTEN" | .intdis => "INTDIS"
  | .write _ => "WRITE" | .read => "READ" | .reset => "RESET" | .resetlvl _ => "RESETLVL"

/-- The command word that the low `nbits` bits of w make. A command is exactly one 32-bit word (R99), so the
bits above nbits are 0 and bits above 31 do not exist. -/
def tableWord (nbits w : Nat) : CmdWord := BitVec.ofNat 32 (w % 2 ^ nbits)

/-- What the decoder reads from a word given as a number, numbered as opcode_table.json numbers it. -/
def decodeTableWord (nbits w : Nat) : Option Instr :=
  match decode (tableWord nbits w) with
  | .ok i => some i
  | .error _ => none

/-- The mask over signal ids that names the given signals: the OR of `bit(id(s))` (R100). -/
def idMask (names : List Signal) : Byte :=
  names.foldl (fun m x => m ||| (1#8 <<< x.id)) 0

/-- The V field of a SETSIG line: the OR of `l << id(s)` (R100). -/
def levelBits (levels : List (Signal × Nat)) : Byte :=
  levels.foldl (fun v p => v ||| (BitVec.ofNat 8 p.2 <<< p.1.id)) 0

/-- The commands a well-formed assembler line stands for, in the order they are issued (R100, R101). -/
def expand : Source → List Instr
  | .rddata => [.rddata]
  | .reldata => [.reldata]
  | .rdshadow => [.rdshadow]
  | .linkinitd => [.linkinitd]
  | .datapresent => [.datapresent]
  | .outputready => [.outputready]
  | .inten => [.inten]
  | .intdis => [.intdis]
  | .read => [.read]
  | .reset => [.reset]
  | .wrdata b => [.wrdata (BitVec.ofNat 8 b)]
  | .write b => [.write (BitVec.ofNat 8 b)]
  | .linkinit n => [.linkinit (BitVec.ofNat 8 n)]
  | .resetlvl l => [.resetlvl (l == 1)]
  | .setsig levels => [.setsig (idMask (levels.map Prod.fst)) (levelBits levels)]
  | .strobe names => [.strobe (idMask names)]
  | .pulse x => [.strobe (idMask [x]), .strobe (idMask [x])]
  | .assertSig x => [.setsig (idMask [x]) (levelBits [(x, 1)])]
  | .deassertSig x => [.setsig (idMask [x]) (levelBits [(x, 0)])]
  | .nop => [.rdshadow]

/-- The assembler: the words of a line, or none where the line does not assemble (R100, R101). -/
def assemble (l : Source) : Option (List CmdWord) :=
  if l.wf then some ((expand l).map encode) else none

end Sys2Proof
end

