-- ==== Sys2Proof/Machine/State.lean ====
section
/-! DEFINITION. The block's state (10_state.md R34 to R44), the environment state it depends on (R42), and
the fields the model adds: the host's commands not yet started, the environment's answers, the list of all
responses and the contention flag. State is plain data; the configuration in it is never changed (R22). -/

namespace Sys2Proof.Machine

/-- The response status (60_exceptions.md R200). -/
inductive Status
  | ok | invalidArgument | unknownSignal | transportError | notConstructed | illegalCommand | shadowUnknown
  deriving DecidableEq, Repr, Inhabited

/-- A response: the pair (STATUS, DATA) of R96. -/
structure Response where
  status : Status
  data   : Byte
  deriving DecidableEq, Repr, Inhabited

/-- The block's record of the data port's direction (R36): `IN`, `OUT`, `UNKNOWN`. -/
inductive DataDir
  | input | output | unknown
  deriving DecidableEq, Repr, Inhabited

/-- A trace event (R40): `Wr`, `Rd`, `Fail`, `Wait`. -/
inductive Event
  | wr (dev : DevAddr) (reg : RegAddr) (v : Byte)
  | rd (dev : DevAddr) (reg : RegAddr) (v : Byte)
  | fail (dev : DevAddr) (reg : RegAddr)
  | wait (t : Nat)
  deriving DecidableEq, Repr

/-- The expander register space as (address key, byte) pairs: the registers written since power-on, keys
strictly rising. An unlisted address reads as no value, so no entry repeats what an unlisted address reads
as; `State.expReg` says what the register then holds. -/
abbrev Memory := List Host.Cell

/-- The machine. -/
structure State where
  /-- The configuration (00_scope.md R6, 10_state.md R22). -/
  board        : Board
  /-- The expanders' registers that have been written (R42, R60). -/
  mem          : Memory
  /-- MODEL'S OWN (log 2): the environment's decisions on the coming transactions, next first. -/
  draws        : List BusDraw
  /-- MODEL'S OWN (log 2): how many transactions the environment has decided on since reset. -/
  drawn        : Nat
  /-- `SHADOW` (R34). -/
  shadow       : Byte
  /-- `SHADOW_VALID` (R35). -/
  shadowValid  : Bool
  /-- `DATA_DIR` (R36). -/
  dataDir      : DataDir
  /-- `LINK_READY` (R37). -/
  linkReady    : Bool
  /-- `LINK_SPEED`; none is the spec's `NONE` (R38). -/
  linkSpeed    : Option LinkSpeed
  /-- `BUSY` (R39). -/
  busy         : Bool
  /-- The position of the sequence in the current command: the primitives performed so far (R39). -/
  seqPos       : Nat
  /-- `TRACE`, oldest first (R40). -/
  trace        : List Event
  /-- `RESP`; none is the spec's "none", no command has completed (R41). -/
  resp         : Option Response
  /-- MODEL'S OWN (log 9; R208, 92_eei_decisions.md D38): every response since reset, oldest first. -/
  responses    : List Response
  /-- The commands the host has issued and the block has not started (R45, R214; log 8), next first. -/
  pending      : List CmdWord
  /-- MODEL'S OWN (93_implementation_defined.md I11, log 6): a run flagged for bus contention by a write of the
  block. The power-on latch by itself sets no flag. -/
  contention   : Bool
  deriving DecidableEq, Repr

/-- The reasons the machine stops with a fault: none. The spec gives the block no trap and no stop (60_exceptions.md
R210); an error is a response, and the run it calls erroneous (I11) goes on with `contention` set. -/
inductive Fault
  deriving DecidableEq, Repr

/-- The reasons a step is refused. -/
inductive Refusal
  /-- Raised by `exec` for a command that has no meaning yet (safe: nothing can be proved about it). No arm of
  `exec` raises it now. -/
  | notModelled (mnemonic : String)
  deriving DecidableEq, Repr

/-- Power-on reset (10_state.md R44, 70_reset_and_hazards.md R240): no transaction is performed, the
configuration and `SHADOW` are free values, no expander register has been written, no command is issued.
`contention` starts at 0 whatever `EXP_OLAT_RESET` is. That a power-on latch with CSN at 0 and RNW at 1 does not
itself count as contention, though `DATA_DIR` is not `IN` then, is the model's choice (DESIGN CHOICE, log 6): I11
and R251 speak of asserting chip select for a read, and leave open a latch that powers on so. -/
def State.reset : State where
  board := Config.board
  mem := []
  draws := []
  drawn := 0
  shadow := Config.shadowPowerOn
  shadowValid := false
  dataDir := .unknown
  linkReady := false
  linkSpeed := none
  busy := false
  seqPos := 0
  trace := []
  resp := none
  responses := []
  pending := []
  contention := false

end Sys2Proof.Machine
end

