-- ==== Sys2Proof/Machine/Flags.lean ====
section
/-! DEFINITION. The block has no flags and no condition codes (10_state.md R46): a command's only outputs
beside the trace are its response status and data. This file holds how they are coded. -/

namespace Sys2Proof.Machine

/-- The status code (60_exceptions.md R200). -/
def statusCode : Status → BitVec 4
  | .ok => 0
  | .invalidArgument => 1
  | .unknownSignal => 2
  | .transportError => 3
  | .notConstructed => 4
  | .illegalCommand => 5
  | .shadowUnknown => 6

/-- The response word: bits 15:12 are 0, then STATUS, then DATA (R96). -/
def responseWord (r : Response) : RespWord := (0 : BitVec 4) ++ statusCode r.status ++ r.data

/-- The DATA byte of a yes-or-no result: 0x01 for true, 0x00 for false (R96). -/
def boolData (b : Bool) : Byte := if b then 0x01 else 0x00

/-- The result of a status poll: bit 0 of the byte read, bits 7:1 ignored (41_link_protocol.md R165, R167). -/
def statusBit (v : Byte) : Bool := v.getLsbD 0

end Sys2Proof.Machine
end

