-- ==== Sys2Proof/Machine/Operands.lean ====
section
/-! DEFINITION. Operand forms: signal masks over ids and the control-port bits they name (00_scope.md R8, R15;
30_encoding.md R92, R93), the one-signal operand of STROBE (R130), the link speed (R94, R160), and the
register-select levels of an access (41_link_protocol.md R151). -/

namespace Sys2Proof.Machine

/-- `bit(i)`: the byte with only bit i set (R8). -/
def bit (i : Nat) : Byte := 1#8 <<< i

/-- `{s1}|{s2}|…`: the mask over signal ids that names the given signals (41_link_protocol.md, R92). -/
def maskOf (names : List Signal) : Byte := names.foldl (fun m x => m ||| bit x.id) 0

/-- The mask that names a signal where its level is true, and nothing where it is false: the V operand that
gives one signal a level (R93, R160, R183). -/
def levelMask (x : Signal) (level : Bool) : Byte := if level then maskOf [x] else 0

/-- The set of signals a mask names, by rising id (R92). -/
def namedSignals (m : Byte) : List Signal := Signal.all.filter fun x => m.getLsbD x.id

/-- `popcount(v)`, the number of set bits (R8). -/
def popcount (v : Byte) : Nat := (List.range 8).countP fun i => v.getLsbD i

/-- The control-port bits of the signals a mask over ids names, `bit(SIG(s))` for each (R92, R125). -/
def portBits (sig : Signal → Fin 8) (m : Byte) : Byte :=
  (namedSignals m).foldl (fun acc x => acc ||| bit (sig x)) 0

/-- The new control word of SETSIG (R125): every named signal's bit cleared, then those with level 1 set. -/
def mergeLevels (sig : Signal → Fin 8) (m v c : Byte) : Byte :=
  (c &&& ~~~(portBits sig m)) ||| portBits sig (m &&& v)

/-- The new control word of STROBE (R130): the signal's bit inverted. -/
def invertSignal (sig : Signal → Fin 8) (x : Signal) (c : Byte) : Byte := c ^^^ bit (sig x)

/-- The link speed a LINKINIT byte asks for: 10 or 20, in decimal, and none for any other value (R94, R160). -/
def speedOf (b : Byte) : Option LinkSpeed :=
  if b = 10 then some .mbit10 else if b = 20 then some .mbit20 else none

/-- The level of LSPD for a speed: 10 is false, 20 is true (R27). -/
def speedLevel : LinkSpeed → Bool
  | .mbit10 => false
  | .mbit20 => true

/-- The signals a SELECT names, `{RS0}|{RS1}|{RNW}|{SS}` (R151). -/
def selectMask : Byte := maskOf [.rs0, .rs1, .rnw, .ss]

/-- The V operand of a SELECT, `(r0 << 2) | (r1 << 3) | (rw << 4) | (ss << 5)` (R151). -/
def selectLevels (l : SelectLevels) : Byte :=
  levelMask .rs0 l.rs0 ||| levelMask .rs1 l.rs1 ||| levelMask .rnw l.rnw ||| levelMask .ss l.ss

end Sys2Proof.Machine
end

