-- ==== Sys2Proof/Machine/Ops.lean ====
section
/-! DEFINITION. The operations every command is built from: the expander register space (20_memory.md), the
pins (R63, R64), the two bus transactions and the wait (00_scope.md R11 to R13), the end of a command
(R14; 60_exceptions.md R206, R210), the Interface's sub-sequences (40_interface.md) and the Link's shared
sequences (41_link_protocol.md R151 to R155). The block has no traps: `finish`, which ends a command with its
response, is the one operation an error goes through (R210), and nothing returns from it (R211). -/

namespace Sys2Proof.Machine

/-! ### The expander register space -/

/-- A register address is a 7-bit device and an 8-bit register (R60), so a key is below this. -/
def addressLimit : Nat := 32768

/-- The byte at an address, or none where nothing has been written. -/
def Memory.read : Memory → Nat → Option Byte
  | [], _ => none
  | (k, b) :: rest, a => if a = k then some b else Memory.read rest a

/-- Write one byte, keeping the keys strictly rising. -/
def Memory.write : Memory → Nat → Byte → Memory
  | [], a, v => [(a, v)]
  | (k, b) :: rest, a, v =>
    if a < k then (a, v) :: (k, b) :: rest
    else if a = k then (a, v) :: rest
    else (k, b) :: Memory.write rest a v

/-- The canonical form: keys strictly rising and inside the register space. -/
abbrev Memory.wf (m : Memory) : Prop :=
  m.Pairwise (fun c d => c.1 < d.1) ∧ ∀ c ∈ m, c.1 < addressLimit

/-- What a named register holds before the block's first write of it: `EXP_OLAT_RESET` for the control latch
(R62), any value for the others (R241). -/
def powerOnByte (b : Board) : Reg → Byte
  | .olatCtrl => b.raw.expOlatReset
  | r => Config.powerOnRegister (b.addr r).key

/-- What a named expander register holds. -/
def State.expReg (s : State) (r : Reg) : Byte :=
  (Memory.read s.mem (s.board.addr r).key).getD (powerOnByte s.board r)

/-- The register holds v from now on (R62: a completed write). -/
def State.store (s : State) (r : Reg) (v : Byte) : State :=
  { s with mem := Memory.write s.mem (s.board.addr r).key v }

/-! ### The pins -/

/-- The control latch, `EXP_OLAT_CTRL` (R42, R62); the control pins carry it (R64). -/
def State.latch (s : State) : Byte := s.expReg .olatCtrl

/-- The level of a control pin: bit `SIG(s)` of the control latch for signal s (R64). -/
def State.level (s : State) (x : Signal) : Bool := s.latch.getLsbD (s.board.sig x)

/-- What the expander does with the eight data pins (R63). -/
inductive PinDrive
  | driven (v : Byte) | tristate | unknown
  deriving DecidableEq, Repr

/-- The data pins as the expander leaves them: driven with the data latch, tri-stated, or unknown where the
direction register holds neither value the block writes (R63, R241). -/
def State.dataPins (s : State) : PinDrive :=
  if s.expReg .dirData = s.board.raw.dirAllOut then .driven (s.expReg .olatData)
  else if s.expReg .dirData = s.board.raw.dirAllIn then .tristate
  else .unknown

/-- Chip select is asserted for a read (CSN 0, RNW 1) while the data port is not known to be an input
(93_implementation_defined.md I11). -/
def State.contending (s : State) : Bool :=
  !s.level .csn && s.level .rnw && s.dataDir != .input

/-- Flag the run where both sides may now drive the data pins (I11; log 6). The flag stays set. -/
def State.noteContention (s : State) : State := { s with contention := s.contention || s.contending }

/-! ### Transactions -/

/-- The environment's decision on the k-th transaction from here: the listed answer, or a free value where
State lists none (R12, R69; log 2). -/
def State.drawAt (s : State) (k : Nat) : BusDraw :=
  (s.draws[k]?).getD (Config.freeDraw (s.drawn + k))

/-- One decision of the environment is used up and the sequence moves on by one primitive. -/
def State.advance (s : State) : State :=
  { s with draws := s.draws.tail, drawn := s.drawn + 1, seqPos := s.seqPos + 1 }

/-- Append one event to `TRACE` (R40). -/
def State.record (s : State) (e : Event) : State := { s with trace := s.trace ++ [e] }

/-- `SHADOW` and `SHADOW_VALID` after a completed write of n to the control latch (R125, R130). -/
def State.commitShadow (s : State) (n : Byte) : State := { s with shadow := n, shadowValid := true }

/-- `DATA_DIR <- d`. -/
def State.setDataDir (s : State) (d : DataDir) : State := { s with dataDir := d }

/-- `LINK_READY <- v`. -/
def State.setLinkReady (s : State) (v : Bool) : State := { s with linkReady := v }

/-- `LINK_SPEED <- v`. -/
def State.setLinkSpeed (s : State) (v : LinkSpeed) : State := { s with linkSpeed := some v }

/-- What a failed write leaves in the block's state (R206): a control-latch write makes `SHADOW` invalid, a
direction write makes `DATA_DIR` unknown, a data-latch write leaves `DATA_DIR` alone. -/
def State.afterFailedWrite (s : State) : Reg → State
  | .olatCtrl => { s with shadowValid := false }
  | .dirData => { s with dataDir := .unknown }
  | _ => s

/-- What a read transaction answers: the levels on the pins for an input register, which are the
environment's (R62, R69), and the register's value for any other. -/
def State.answer (s : State) (d : BusDraw) : Reg → Byte
  | .inData | .inCtrl => d.pins
  | r => s.expReg r

/-- A command in progress: it goes on with a value, or ends with an error, and the state is kept either way
(R14). `do` sequences it, and the first error ends the whole command (R16). -/
abbrev Op (α : Type) := EStateM Status State α

/-- `raise E` (R14). -/
def raise {α : Type} (e : Status) : Op α := fun s => .error e s

/-- Read something of the block's state. -/
def viewState {α : Type} (f : State → α) : Op α := fun s => .ok (f s) s

/-- Update the block's state. -/
def updateState (f : State → State) : Op Unit := fun s => .ok () (f s)

/-- `respond(s, d)` (R14). -/
def respond (status : Status) (data : Byte) : Op Response := fun s => .ok ⟨status, data⟩ s

/-- `MemRead` of one named register (R11). A failure is recorded as `Fail` and changes nothing else (R12, R206). -/
def memRead (r : Reg) : Op Byte := fun s =>
  let a := s.board.addr r
  let d := s.drawAt 0
  if d.fails then .error .transportError (s.advance.record (.fail a.dev a.reg))
  else .ok (s.answer d r) (s.advance.record (.rd a.dev a.reg (s.answer d r)))

/-- The state after a failed write: the register holds its old value or the new one, as the environment
decides, and the block's state is as R206 says. -/
def State.failedWrite (s : State) (r : Reg) (v : Byte) : State :=
  let a := s.board.addr r
  let landed := if (s.drawAt 0).lands then s.store r v else s
  ((landed.advance.record (.fail a.dev a.reg)).afterFailedWrite r).noteContention

/-- The state after a completed write. -/
def State.completedWrite (s : State) (r : Reg) (v : Byte) : State :=
  let a := s.board.addr r
  (s.store r v).advance.record (.wr a.dev a.reg v)

/-- `MemWrite` of one named register (R11, R12, R206). -/
def memWrite (r : Reg) (v : Byte) : Op Unit := fun s =>
  if (s.drawAt 0).fails then .error .transportError (s.failedWrite r v)
  else .ok () (s.completedWrite r v)

/-- The state after a wait: its event in the trace, and the sequence one primitive further (R13, R39). -/
def State.waited (s : State) : State :=
  { s with trace := s.trace ++ [.wait s.board.raw.strobeHold], seqPos := s.seqPos + 1 }

/-- `Wait(STROBE_HOLD)`: an event in the trace and no other effect (R13, R258). -/
def waitHold : Op Unit := updateState State.waited

/-! ### The end of a command -/

/-- A command starts: `BUSY <- 1`, at the first position of its sequence (R39, R214). -/
def State.start (s : State) : State := { s with busy := true, seqPos := 0 }

/-- A command ends with its response (R14, R41, R210): `BUSY <- 0`. -/
def State.finish (s : State) (r : Response) : State :=
  { s with resp := some r, responses := s.responses ++ [r], busy := false, seqPos := 0 }

/-- The response to an error E is `(code(E), 0x00)` (R14). -/
def errorResponse (e : Status) : Response := ⟨e, 0x00⟩

/-- How a command's body ends: with the response it gives, or with that of the error it raised. -/
def endCommand : EStateM.Result Status State Response → State
  | .ok r s => s.finish r
  | .error e s => s.finish (errorResponse e)

/-- A whole command, from its start to its response (R214). It always completes: an error is a response (R210). -/
def runCommand (body : Op Response) (s : State) : Host.Outcome State Fault Refusal :=
  .next (endCommand (body s.start))

/-! ### Interface sub-sequences (40_interface.md) -/

/-- Write the data port's direction register and record the direction (R120, R122, R135). -/
def writeDirection (v : Byte) (d : DataDir) : Op Unit := do
  memWrite .dirData v
  updateState fun s => (s.setDataDir d).noteContention

/-- `releaseData()` (R135): the data port becomes an input. -/
def releaseData : Op Unit := do
  let v ← viewState fun s => s.board.raw.dirAllIn
  writeDirection v .input

/-- `readData()` (R120): the direction is written "even if already input". -/
def readData : Op Byte := do
  releaseData
  memRead .inData

/-- `writeData(b)` (R122): direction first, then the latch; the direction is not reverted. -/
def writeData (b : Byte) : Op Unit := do
  let v ← viewState fun s => s.board.raw.dirAllOut
  writeDirection v .output
  memWrite .olatData b

/-- Write the control latch and the shadow (R125, R130). -/
def writeControl (n : Byte) : Op Unit := do
  memWrite .olatCtrl n
  updateState fun s => (s.commitShadow n).noteContention

/-- `setSignals(M, V)` (R125): the base is the latch read, never `SHADOW`, and all named signals change in one write. -/
def setSignals (m v : Byte) : Op Unit := do
  let c ← memRead .olatCtrl
  let n ← viewState fun s => mergeLevels s.board.sig m v c
  writeControl n

/-- `strobeSignal(M)` (R130): M must name exactly one signal; its bit is inverted and held. -/
def strobeSignal (m : Byte) : Op Unit :=
  match namedSignals m with
  | [x] => do
    let c ← memRead .olatCtrl
    let n ← viewState fun s => invertSignal s.board.sig x c
    writeControl n
    waitHold
  | _ => raise .invalidArgument

/-! ### Link sequences (41_link_protocol.md) -/

/-- `LINK_READY = 1`, or NotConstructed before any primitive (R150, R203). -/
def requireLink : Op Unit := fun s => if s.linkReady then .ok () s else .error .notConstructed s

/-- `SELECT(sel)` (R151): step (a), one write. -/
def selectRegister (sel : Selector) : Op Unit := do
  let l ← viewState fun s => s.board.raw.regsel.levels sel
  setSignals selectMask (selectLevels l)

/-- `CS_ON()` (R152): chip select asserted, level 0. -/
def csOn : Op Unit := setSignals (maskOf [.csn]) 0

/-- `CS_OFF_SS_OFF()` (R152): step (d), one write. -/
def csOffSsOff : Op Unit := setSignals (maskOf [.csn, .ss]) (maskOf [.csn])

/-- `SS_OFF()` (R152). -/
def ssOff : Op Unit := setSignals (maskOf [.ss]) 0

/-- `PULSE(s)` (R153): two strobes of one signal. -/
def pulse (x : Signal) : Op Unit := do
  strobeSignal (maskOf [x])
  strobeSignal (maskOf [x])

/-- `ACCESS_READ(sel)` (R154). -/
def accessRead (sel : Selector) : Op Byte := do
  selectRegister sel
  csOn
  let v ← readData
  csOffSsOff
  return v

/-- `ACCESS_WRITE(sel, b)` (R155). -/
def accessWrite (sel : Selector) (b : Byte) : Op Unit := do
  selectRegister sel
  writeData b
  pulse .csn
  releaseData

/-- `CONSTRUCT(n)` for a valid speed (R160): four separate latch writes in this order. -/
def construct (n : LinkSpeed) : Op Unit := do
  updateState fun s => s.setLinkReady false
  setSignals (maskOf [.rst]) (maskOf [.rst])
  setSignals (maskOf [.csn]) (maskOf [.csn])
  setSignals (maskOf [.lspd]) (levelMask .lspd (speedLevel n))
  updateState fun s => s.setLinkSpeed n
  setSignals (maskOf [.rst]) 0
  updateState fun s => s.setLinkReady true

end Sys2Proof.Machine
end

