-- ==== Sys2Proof/Machine/Interface.lean ====
section
/-! DEFINITION. The Interface/ControlPort commands (40_interface.md). None of them needs `LINK_READY`. -/

namespace Sys2Proof.Machine

/-- RDDATA (R120). -/
def execRddata (s : State) : Host.Outcome State Fault Refusal :=
  runCommand (do
    let v ← readData
    respond .ok v) s

/-- WRDATA b (R122). -/
def execWrdata (b : Byte) (s : State) : Host.Outcome State Fault Refusal :=
  runCommand (do
    writeData b
    respond .ok 0x00) s

/-- SETSIG m v (R125). -/
def execSetsig (m v : Byte) (s : State) : Host.Outcome State Fault Refusal :=
  runCommand (do
    setSignals m v
    respond .ok 0x00) s

/-- STROBE m (R130). -/
def execStrobe (m : Byte) (s : State) : Host.Outcome State Fault Refusal :=
  runCommand (do
    strobeSignal m
    respond .ok 0x00) s

/-- RELDATA (R135). -/
def execReldata (s : State) : Host.Outcome State Fault Refusal :=
  runCommand (do
    releaseData
    respond .ok 0x00) s

/-- RDSHADOW (R140): no primitive; the status says whether the shadow is known. -/
def execRdshadow (s : State) : Host.Outcome State Fault Refusal :=
  runCommand (do
    let valid ← viewState fun s => s.shadowValid
    let v ← viewState fun s => s.shadow
    if valid then respond .ok v else respond .shadowUnknown 0x00) s

end Sys2Proof.Machine
end

