-- ==== Sys2Proof/Machine/Link.lean ====
section
/-! DEFINITION. The LinkProtocol commands (41_link_protocol.md). Each is a fixed sequence of Interface
sub-sequences; all but the two constructions first require `LINK_READY` (R150). -/

namespace Sys2Proof.Machine

/-- LINKINIT n (R160): the speed is checked before anything else happens. -/
def execLinkinit (b : Byte) (s : State) : Host.Outcome State Fault Refusal :=
  runCommand (match speedOf b with
    | some n => do
      construct n
      respond .ok 0x00
    | none => raise .invalidArgument) s

/-- LINKINITD (R162): construction at `DEFAULT_LINK_SPEED`. -/
def execLinkinitd (s : State) : Host.Outcome State Fault Refusal :=
  runCommand (do
    let n ← viewState fun s => s.board.raw.defaultLinkSpeed
    construct n
    respond .ok 0x00) s

/-- DATAPRESENT (R165). -/
def execDatapresent (s : State) : Host.Outcome State Fault Refusal :=
  runCommand (do
    requireLink
    let v ← accessRead .isrRd
    respond .ok (boolData (statusBit v))) s

/-- OUTPUTREADY (R167). -/
def execOutputready (s : State) : Host.Outcome State Fault Refusal :=
  runCommand (do
    requireLink
    let v ← accessRead .osrRd
    respond .ok (boolData (statusBit v))) s

/-- INTEN (R170): 0x02 to the ISR, then to the OSR, then StatusSelect cleared. -/
def execInten (s : State) : Host.Outcome State Fault Refusal :=
  runCommand (do
    requireLink
    accessWrite .isrWr 0x02
    accessWrite .osrWr 0x02
    ssOff
    respond .ok 0x00) s

/-- INTDIS (R172): 0x00 to the ISR, then to the OSR, then StatusSelect cleared. -/
def execIntdis (s : State) : Host.Outcome State Fault Refusal :=
  runCommand (do
    requireLink
    accessWrite .isrWr 0x00
    accessWrite .osrWr 0x00
    ssOff
    respond .ok 0x00) s

/-- WRITE b (R175). -/
def execWrite (b : Byte) (s : State) : Host.Outcome State Fault Refusal :=
  runCommand (do
    requireLink
    accessWrite .odrWr b
    ssOff
    respond .ok 0x00) s

/-- READ (R178). -/
def execRead (s : State) : Host.Outcome State Fault Refusal :=
  runCommand (do
    requireLink
    let v ← accessRead .idrRd
    respond .ok v) s

/-- RESET (R181): one pulse of LinkResetLine. -/
def execReset (s : State) : Host.Outcome State Fault Refusal :=
  runCommand (do
    requireLink
    pulse .lrst
    respond .ok 0x00) s

/-- RESETLVL l (R183): LinkResetLine held at a level. -/
def execResetlvl (l : Bool) (s : State) : Host.Outcome State Fault Refusal :=
  runCommand (do
    requireLink
    setSignals (maskOf [.lrst]) (levelMask .lrst l)
    respond .ok 0x00) s

end Sys2Proof.Machine
end

