-- ==== Sys2Proof/Machine/Dispatch.lean ====
section
/-! DEFINITION. One arm per command. -/

namespace Sys2Proof.Machine

def exec (i : Instr) (s : State) : Host.Outcome State Fault Refusal :=
  match i with
  | .rddata => Sys2Proof.Machine.execRddata s
  | .wrdata b => Sys2Proof.Machine.execWrdata b s
  | .setsig m v => Sys2Proof.Machine.execSetsig m v s
  | .strobe m => Sys2Proof.Machine.execStrobe m s
  | .reldata => Sys2Proof.Machine.execReldata s
  | .rdshadow => Sys2Proof.Machine.execRdshadow s
  | .linkinit b => Sys2Proof.Machine.execLinkinit b s
  | .linkinitd => Sys2Proof.Machine.execLinkinitd s
  | .datapresent => Sys2Proof.Machine.execDatapresent s
  | .outputready => Sys2Proof.Machine.execOutputready s
  | .inten => Sys2Proof.Machine.execInten s
  | .intdis => Sys2Proof.Machine.execIntdis s
  | .write b => Sys2Proof.Machine.execWrite b s
  | .read => Sys2Proof.Machine.execRead s
  | .reset => Sys2Proof.Machine.execReset s
  | .resetlvl l => Sys2Proof.Machine.execResetlvl l s

end Sys2Proof.Machine
end

