-- ==== Sys2Proof/Machine/Step.lean ====
section
/-! DEFINITION. One step: the block takes the next command the host has issued and runs it to its response
(60_exceptions.md R214). It has no program counter and fetches nothing (10_state.md R45); the host's
command stream is the program. -/

namespace Sys2Proof.Machine

/-- The host's next command is taken from the stream. -/
def State.takeCommand (s : State) (rest : List CmdWord) : State := { s with pending := rest }

/-- An illegal command performs no primitive, changes nothing but the response, and responds
`(IllegalCommand, 0x00)` (30_encoding.md R97, 60_exceptions.md R201). -/
def State.illegal (s : State) : State := s.finish (errorResponse .illegalCommand)

/-- One step. A command issued while `BUSY = 1` is not started (R214), and with no command issued the block
idles with its state held (R228, R242). -/
def step (s : State) : Host.Outcome State Fault Refusal :=
  if s.busy then .next s
  else match s.pending with
    | [] => .next s
    | w :: rest =>
      match decode w with
      | .ok i => exec i (s.takeCommand rest)
      | .error _ => .next (s.takeCommand rest).illegal

/-- The host issues the given command as the next one, to a block that is not busy. -/
def State.withFetchWord (s : State) (nbits w : Nat) : State :=
  { s with pending := tableWord nbits w :: s.pending, busy := false }

end Sys2Proof.Machine
end

