-- ==== Sys2Proof/Machine/Adapter.lean ====
section
/-! DEFINITION. The adapter reference model of 20_memory.md R70, which the spec gives for tests and as an
explicit premise. It is no part of the block: it reads the block's trace as the adapter sees it on its pins
(R63, R64) and says what bytes the adapter takes and what it may answer (log 7). The block's meanings never
use it (R43, R69). -/

namespace Sys2Proof.Machine

/-- What the model knows of a status register of the adapter (R70). -/
structure AdapterStatus where
  /-- The interrupt enable, bit 1 of the byte last written; none before a write, and where it is not known. -/
  irq     : Option Bool
  /-- The register has been written, or may have been, so its bit 0 is a draw (R70, I3). -/
  written : Bool
  deriving DecidableEq, Repr

/-- A control-latch write that failed: it landed or not (R206), and the next read of the latch tells which (R62). -/
structure AdapterDoubt where
  /-- The control word before the write. -/
  before : Byte
  /-- What the expander drove onto the data pins at the write. -/
  onPins : Option Byte
  deriving DecidableEq, Repr

/-- What the reference adapter sees and has taken. `none` is "not known". -/
structure AdapterView where
  /-- The control pins. -/
  control      : Option Byte
  /-- The data port's direction register. -/
  direction    : Option Byte
  /-- The data latch. -/
  latch        : Option Byte
  /-- The bytes handed to the output data register, oldest first. -/
  sent         : List (Option Byte)
  /-- The ISR. -/
  inputStatus  : AdapterStatus
  /-- The OSR. -/
  outputStatus : AdapterStatus
  /-- The view holds all the adapter has taken: no access has ended whose register is not known (I5). -/
  certain      : Bool
  /-- The last event at the control latch is a read of it, so the next is the write of the same read-modify-write,
  completed or failed (R125, R130). -/
  writeNext    : Bool
  /-- The failed control-latch write that no read of the latch has settled. -/
  doubt        : Option AdapterDoubt
  deriving DecidableEq, Repr

/-- What R70 makes the adapter's answers depend on, at one moment. It may be different at every moment (I4). -/
structure AdapterFacts where
  /-- A received byte is waiting. -/
  byteWaiting : Bool
  /-- The adapter can take a byte to send. -/
  canTake     : Bool
  deriving DecidableEq, Repr

/-- The level of a signal in a control word (R64). -/
def wordLevel (b : Board) (c : Byte) (x : Signal) : Bool := c.getLsbD (b.sig x)

/-- A control word has the levels of RS1, RS0 and RNW that `REGSEL` gives a selector (R31). -/
def selects (b : Board) (c : Byte) (sel : Selector) : Bool :=
  let l := b.raw.regsel.levels sel
  l.rs1 == wordLevel b c .rs1 && l.rs0 == wordLevel b c .rs0 && l.rnw == wordLevel b c .rnw

/-- The selectors whose levels a control word has. -/
def accessTargets (b : Board) (c : Byte) : List Selector :=
  [Selector.idrRd, .odrWr, .isrRd, .isrWr, .osrRd, .osrWr].filter (selects b c)

/-- The access a control word decodes to: the register and whether it is read or written (R31, R70). None where
`REGSEL` has no such levels (I5), or gives them to two selectors. -/
def accessTarget (b : Board) (c : Byte) : Option Selector :=
  match accessTargets b c with
  | [sel] => some sel
  | [] | _ :: _ :: _ => none

/-- The byte the expander drives onto the data pins (R63). None where it does not drive them, or drives a byte
that is not known: the pins then read any value (I12). -/
def drivenByte (b : Board) (a : AdapterView) : Option Byte :=
  if a.direction = some b.raw.dirAllOut then a.latch else none

/-- A status register after a write of a byte (R70: bit 1 is its interrupt enable). -/
def AdapterStatus.ofWrite (v : Option Byte) : AdapterStatus := ⟨v.map fun b => b.getLsbD 1, true⟩

/-- An access ends with v on the data pins: a write hands v to its register (R70), and a read hands over nothing. -/
def takeByte (a : AdapterView) (v : Option Byte) : Selector → AdapterView
  | .odrWr => { a with sent := a.sent ++ [v] }
  | .isrWr => { a with inputStatus := .ofWrite v }
  | .osrWr => { a with outputStatus := .ofWrite v }
  | .idrRd | .isrRd | .osrRd => a

/-- A status register that may have been written, with any byte. -/
def AdapterStatus.unknown : AdapterStatus := ⟨none, true⟩

/-- A write of a register that is not known has ended: any register may have been written. -/
def unknownWrite (a : AdapterView) : AdapterView :=
  { a with inputStatus := .unknown, outputStatus := .unknown, certain := false }

/-- The access of control word c ends with v on the data pins. Where no selector has the word's levels it is a read
with RNW at 1, which hands nothing over (R27), and else a write of a register that is not known (I5); where
several have them, it may be any write. -/
def endAccess (b : Board) (a : AdapterView) (c : Byte) (v : Option Byte) : AdapterView :=
  match accessTargets b c with
  | [sel] => takeByte a v sel
  | [] => if wordLevel b c .rnw then a else unknownWrite a
  | _ :: _ :: _ => unknownWrite a

/-- The control pins change from c to n with v on the data pins: an access ends on the rising edge of CSN (R70). -/
def controlEdge (b : Board) (a : AdapterView) (c n : Byte) (v : Option Byte) : AdapterView :=
  if !wordLevel b c .csn && wordLevel b n .csn then endAccess b a c v else a

/-- A control-latch write completes. -/
def controlWritten (b : Board) (a : AdapterView) (n : Byte) : AdapterView :=
  { (match a.control with
      | some c => controlEdge b a c n (drivenByte b a)
      | none => unknownWrite a) with
    control := some n, writeNext := false, doubt := none }

/-- A read of the control latch answers n. It changes nothing at the pins, and it tells whether the write before it
that failed has landed (R62, R206). -/
def controlSeen (b : Board) (a : AdapterView) (n : Byte) : AdapterView :=
  { (match a.doubt with
      | some d => controlEdge b a d.before n d.onPins
      | none => a) with
    control := some n, writeNext := true, doubt := none }

/-- A control-latch transaction fails (R206). A failed read changes nothing; after a failed write the control pins
are not known until the next read of the latch. -/
def controlFails (b : Board) (a : AdapterView) : AdapterView :=
  if a.writeNext then
    match a.control with
    | some c => { a with control := none, writeNext := false, doubt := some ⟨c, drivenByte b a⟩ }
    | none => { unknownWrite a with writeNext := false }
  else a

/-- The adapter after one event of the trace. After a failed write of the direction or of the data latch the
register's value is not known (R206). -/
def adapterEvent (b : Board) (a : AdapterView) : Event → AdapterView
  | .wr dev reg v =>
    if ⟨dev, reg⟩ = b.addr .olatCtrl then controlWritten b a v
    else if ⟨dev, reg⟩ = b.addr .dirData then { a with direction := some v }
    else if ⟨dev, reg⟩ = b.addr .olatData then { a with latch := some v }
    else a
  | .rd dev reg v => if ⟨dev, reg⟩ = b.addr .olatCtrl then controlSeen b a v else a
  | .fail dev reg =>
    if ⟨dev, reg⟩ = b.addr .olatCtrl then controlFails b a
    else if ⟨dev, reg⟩ = b.addr .dirData then { a with direction := none }
    else if ⟨dev, reg⟩ = b.addr .olatData then { a with latch := none }
    else a
  | .wait _ => a

/-- The adapter as it stands at the pins of a state, with nothing taken and no status register written. -/
def adapterAt (s : State) : AdapterView where
  control := some (s.expReg .olatCtrl)
  direction := some (s.expReg .dirData)
  latch := some (s.expReg .olatData)
  sent := []
  inputStatus := ⟨none, false⟩
  outputStatus := ⟨none, false⟩
  certain := true
  writeNext := false
  doubt := none

/-- The adapter after a list of events. -/
def adapterRun (b : Board) (a : AdapterView) (events : List Event) : AdapterView :=
  events.foldl (adapterEvent b) a

/-- The register the adapter drives onto the data pins: the target of an access with CSN at 0, where the expander
leaves the pins to the adapter. Elsewhere what they read is any value (I11, I12). -/
def drivenRegister (b : Board) (a : AdapterView) : Option Selector :=
  a.control.bind fun c =>
    if !wordLevel b c .csn && a.direction == some b.raw.dirAllIn then accessTarget b c else none

/-- The bytes the data pins may read at one moment (R70): bit 0 of the ISR says whether a byte is waiting and
bit 0 of the OSR whether one can be taken, until a write of the register, or what may have been one, makes it a
draw. Everything else is any value: bits 7:1 (I3), the IDR, and the pins where no status register is on them. -/
def adapterAnswers (b : Board) (a : AdapterView) (facts : AdapterFacts) (v : Byte) : Bool :=
  match drivenRegister b a with
  | some .isrRd => a.inputStatus.written || v.getLsbD 0 == facts.byteWaiting
  | some .osrRd => a.outputStatus.written || v.getLsbD 0 == facts.canTake
  | some .idrRd | some .odrWr | some .isrWr | some .osrWr | none => true

/-- A read of the data input answers what the adapter may put on the pins; other events are no answers of its. -/
def eventAdmitted (b : Board) (a : AdapterView) (facts : AdapterFacts) : Event → Bool
  | .rd dev reg v => (⟨dev, reg⟩ : ExpAddr) != b.addr .inData || adapterAnswers b a facts v
  | .wr _ _ _ | .fail _ _ | .wait _ => true

/-- The reference adapter admits a list of events, the first of them number k, where `facts` gives what holds at
each event: every answer in the list is one it may give. -/
def adapterAdmits (b : Board) (facts : Nat → AdapterFacts) : Nat → AdapterView → List Event → Bool
  | _, _, [] => true
  | k, a, e :: rest => eventAdmitted b a (facts k) e && adapterAdmits b facts (k + 1) (adapterEvent b a e) rest

end Sys2Proof.Machine
end

