-- ==== Sys2Proof/Safety.lean ====
section
/-! DEFINITION. The terms claims are made in: what a step added to the trace, that the environment fails no
transaction, the host's boot duties, and the invariant of every state between commands. -/

namespace Sys2Proof

open Machine

/-- The trace events of a completed write and a completed read of a named register, a failed one, and the hold (R40). -/
def Board.wr (b : Board) (r : Reg) (v : Byte) : Event := .wr (b.addr r).dev (b.addr r).reg v

@[inherit_doc Board.wr]
def Board.rd (b : Board) (r : Reg) (v : Byte) : Event := .rd (b.addr r).dev (b.addr r).reg v

@[inherit_doc Board.wr]
def Board.failed (b : Board) (r : Reg) : Event := .fail (b.addr r).dev (b.addr r).reg

@[inherit_doc Board.wr]
def Board.hold (b : Board) : Event := .wait b.raw.strobeHold

/-- The control word after SELECT(sel) from c (R151). -/
def Board.selectWord (b : Board) (sel : Selector) (c : Byte) : Byte :=
  mergeLevels b.sig selectMask (selectLevels (b.raw.regsel.levels sel)) c

/-- The control word after one signal is given a level (R125). -/
def Board.levelWord (b : Board) (x : Signal) (level : Bool) (c : Byte) : Byte :=
  mergeLevels b.sig (maskOf [x]) (levelMask x level) c

/-- The control word after CS_OFF_SS_OFF (R152). -/
def Board.csOffWord (b : Board) (c : Byte) : Byte :=
  mergeLevels b.sig (maskOf [.csn, .ss]) (maskOf [.csn]) c

/-- The two transactions of a control-latch read-modify-write (R125). -/
def Board.updateEvents (b : Board) (c n : Byte) : List Event := [b.rd .olatCtrl c, b.wr .olatCtrl n]

/-- The events of PULSE(x) from control word c, which it restores (R153). -/
def Board.pulseEvents (b : Board) (x : Signal) (c : Byte) : List Event :=
  b.updateEvents c (invertSignal b.sig x c) ++ [b.hold] ++
    b.updateEvents (invertSignal b.sig x c) c ++ [b.hold]

/-- The events of ACCESS_READ(sel) from control word c with the pins reading v (R154). -/
def Board.readAccessEvents (b : Board) (sel : Selector) (c v : Byte) : List Event :=
  let c1 := b.selectWord sel c
  let c2 := b.levelWord .csn false c1
  b.updateEvents c c1 ++ b.updateEvents c1 c2 ++
    [b.wr .dirData b.raw.dirAllIn, b.rd .inData v] ++ b.updateEvents c2 (b.csOffWord c2)

/-- The events of ACCESS_WRITE(sel, v) from control word c (R155). -/
def Board.writeAccessEvents (b : Board) (sel : Selector) (v c : Byte) : List Event :=
  let c1 := b.selectWord sel c
  b.updateEvents c c1 ++ [b.wr .dirData b.raw.dirAllOut, b.wr .olatData v] ++
    b.pulseEvents .csn c1 ++ [b.wr .dirData b.raw.dirAllIn]

/-- The control words of a construction at speed n, in the order they are written (R160). -/
def Board.constructWords (b : Board) (n : LinkSpeed) (c : Byte) : Byte × Byte × Byte × Byte :=
  let c1 := b.levelWord .rst true c
  let c2 := b.levelWord .csn true c1
  let c3 := b.levelWord .lspd (speedLevel n) c2
  (c1, c2, c3, b.levelWord .rst false c3)

/-- A line assembles to one word with these fields, and SUB at 0 (R90, R95, R100). -/
def AssemblesTo (l : Source) (op : BitVec 4) (m v b : Byte) : Prop :=
  ∃ w, assemble l = some [w] ∧ opField w = op ∧ subField w = 0 ∧ maskField w = m ∧ valueField w = v ∧
    byteField w = b

/-- The events of a construction at speed n from control word c (R160). -/
def Board.constructEvents (b : Board) (n : LinkSpeed) (c : Byte) : List Event :=
  let w := b.constructWords n c
  b.updateEvents c w.1 ++ b.updateEvents w.1 w.2.1 ++ b.updateEvents w.2.1 w.2.2.1 ++
    b.updateEvents w.2.2.1 w.2.2.2

end Sys2Proof

namespace Sys2Proof.Machine

/-- None of the next n transactions fails (R12: each may). -/
abbrev State.quiet (s : State) (n : Nat) : Prop := ∀ k < n, (s.drawAt k).fails = false

/-- The events t's trace holds beyond s's. -/
def newEvents (s t : State) : List Event := t.trace.drop s.trace.length

/-- A command answered without a primitive: only the response is new (R202). -/
def State.answered (s : State) (r : Response) : State :=
  { s with resp := some r, responses := s.responses ++ [r], busy := false, seqPos := 0 }

/-- The event is a transaction, not a wait (R40). -/
def Event.isTransaction : Event → Bool
  | .wr _ _ _ | .rd _ _ _ | .fail _ _ => true
  | .wait _ => false

/-- The event is a failed transaction. -/
def Event.isFail : Event → Bool
  | .fail _ _ => true
  | _ => false

/-- The register address an event carries. -/
def Event.addr? : Event → Option ExpAddr
  | .wr dev reg _ | .rd dev reg _ | .fail dev reg => some ⟨dev, reg⟩
  | .wait _ => none

/-- The byte of a completed write of the register at an address. -/
def Event.writeTo? (a : ExpAddr) : Event → Option Byte
  | .wr dev reg v => if (⟨dev, reg⟩ : ExpAddr) = a then some v else none
  | _ => none

/-- The bytes of the completed writes of a register, oldest first. -/
def writesTo (a : ExpAddr) (events : List Event) : List Byte := events.filterMap (Event.writeTo? a)

/-- The changes of the control lines: the pairs (value read, value the lines then have) of the control-latch
read-modify-writes, oldest first. A failed write ends its command (R206), so it is the last event, and the lines
are then at `final`, the control latch at the end: the old word, or the new one where the write landed. -/
def controlMoves (a : ExpAddr) (final : Byte) : List Event → List (Byte × Byte)
  | .rd dev reg c :: .wr dev' reg' n :: rest =>
    if (⟨dev, reg⟩ : ExpAddr) = a ∧ (⟨dev', reg'⟩ : ExpAddr) = a then (c, n) :: controlMoves a final rest
    else controlMoves a final (.wr dev' reg' n :: rest)
  | [.rd dev reg c, .fail dev' reg'] =>
    if (⟨dev, reg⟩ : ExpAddr) = a ∧ (⟨dev', reg'⟩ : ExpAddr) = a then [(c, final)] else []
  | _ :: rest => controlMoves a final rest
  | [] => []

/-- The changes of the control lines in a command that takes s to t. -/
def linesMoved (s t : State) : List (Byte × Byte) :=
  controlMoves (s.board.addr .olatCtrl) t.latch (newEvents s t)

/-- A change of the control lines keeps RS0, RS1 and RNW. -/
def keepsSelect (b : Board) (c n : Byte) : Bool :=
  wordLevel b c .rs0 == wordLevel b n .rs0 && wordLevel b c .rs1 == wordLevel b n .rs1
    && wordLevel b c .rnw == wordLevel b n .rnw

/-- A change of the control lines that changes chip select, or happens while it is asserted, keeps the register
select lines (R156, R187). -/
def selectSettled (b : Board) (u : Byte × Byte) : Bool :=
  (wordLevel b u.1 .csn && wordLevel b u.2 .csn) || keepsSelect b u.1 u.2

/-- The Link commands other than construction, which need `LINK_READY` (R150, R203). -/
def needsLink : Instr → Bool
  | .datapresent | .outputready | .inten | .intdis | .write _ | .read | .reset | .resetlvl _ => true
  | .rddata | .wrdata _ | .setsig _ _ | .strobe _ | .reldata | .rdshadow | .linkinit _ | .linkinitd => false

/-- The construction commands (R160, R162). -/
def constructs : Instr → Bool
  | .linkinit _ | .linkinitd => true
  | .datapresent | .outputready | .inten | .intdis | .write _ | .read | .reset | .resetlvl _
  | .rddata | .wrdata _ | .setsig _ _ | .strobe _ | .reldata | .rdshadow => false

/-- A command's argument check (R204): LINKINIT's byte is 10 or 20, STROBE's mask names one signal. -/
def argumentOk : Instr → Bool
  | .linkinit b => b == 10 || b == 20
  | .strobe m => popcount m == 1
  | .datapresent | .outputready | .inten | .intdis | .write _ | .read | .reset | .resetlvl _
  | .rddata | .wrdata _ | .setsig _ _ | .reldata | .rdshadow | .linkinitd => true

/-- The last SELECT of an access command, none for a command that makes no adapter access (R186). -/
def lastSelect : Instr → Option Selector
  | .datapresent => some .isrRd
  | .outputready => some .osrRd
  | .inten | .intdis => some .osrWr
  | .write _ => some .odrWr
  | .read => some .idrRd
  | .reset | .resetlvl _ | .rddata | .wrdata _ | .setsig _ _ | .strobe _ | .reldata | .rdshadow
  | .linkinit _ | .linkinitd => none

/-- The transactions and the waits of a command that completes (R260). -/
def transactionTable : Instr → Nat × Nat
  | .rddata | .wrdata _ | .setsig _ _ | .resetlvl _ => (2, 0)
  | .strobe _ => (2, 1)
  | .reldata => (1, 0)
  | .rdshadow => (0, 0)
  | .linkinit _ | .linkinitd | .datapresent | .outputready | .read => (8, 0)
  | .write _ => (11, 2)
  | .inten | .intdis => (20, 4)
  | .reset => (4, 2)

/-- t is s after a command that recorded these events and gave this response, and is idle again; the
configuration and the commands still waiting are as they were (R14, R40, R41, R210). -/
structure Ended (s t : State) (r : Response) (events : List Event) : Prop where
  trace     : t.trace = s.trace ++ events
  resp      : t.resp = some r
  responses : t.responses = s.responses ++ [r]
  idle      : t.busy = false ∧ t.seqPos = 0
  board     : t.board = s.board
  pending   : t.pending = s.pending

/-- Every address but those of the listed registers reads as before. -/
def KeptElsewhere (s t : State) (stored : List Reg) : Prop :=
  ∀ a, (∀ r ∈ stored, a ≠ (s.board.addr r).key) → Memory.read t.mem a = Memory.read s.mem a

/-- The Link's state is as before. -/
def KeptLink (s t : State) : Prop := t.linkReady = s.linkReady ∧ t.linkSpeed = s.linkSpeed

/-- The shadow control word is as before. -/
def KeptShadow (s t : State) : Prop := t.shadow = s.shadow ∧ t.shadowValid = s.shadowValid

/-- The control latch, the shadow and the Link end as the control word n leaves them, in a command that stores
to the control latch alone and keeps the data direction. -/
structure ControlWritten (s t : State) (n : Byte) : Prop where
  latch       : t.latch = n
  shadow      : t.shadow = n
  shadowValid : t.shadowValid = true
  dataDir     : t.dataDir = s.dataDir
  elsewhere   : KeptElsewhere s t [.olatCtrl]

/-- The state with another shadow control word. -/
def State.withShadow (s : State) (v : Byte) (valid : Bool) : State := { s with shadow := v, shadowValid := valid }

/-- The command answered OK. -/
def AnsweredOk (t : State) : Prop := ∃ d, t.resp = some ⟨.ok, d⟩

/-- A response that reports an error: every status but OK and ShadowUnknown (R200). -/
def Status.isError : Status → Bool
  | .ok | .shadowUnknown => false
  | .invalidArgument | .unknownSignal | .transportError | .notConstructed | .illegalCommand => true

/-- "No error response" (R208). -/
def State.errorFree (s : State) : Prop := ∀ r ∈ s.responses, r.status.isError = false

/-- What the host sees to before it uses the Link (R245, R255): the Link constructed, the data port an input,
chip select deasserted. -/
def State.booted (s : State) : Prop :=
  s.linkReady = true ∧ s.dataDir = .input ∧ s.level .csn = true

/-- What a safe run keeps: no error response and no bus contention (R208, I11). -/
def State.safe (s : State) : Prop := s.errorFree ∧ s.contention = false

/-- The invariant of every state between commands. -/
structure State.Inv (s : State) : Prop where
  /-- The expander registers are in canonical form. -/
  memWf : Memory.wf s.mem
  /-- Only the data direction, the data latch and the control latch are ever written (R60, R61). -/
  memKeys : ∀ c ∈ s.mem, c.1 = (s.board.addr .dirData).key ∨ c.1 = (s.board.addr .olatData).key ∨
    c.1 = (s.board.addr .olatCtrl).key
  /-- A valid `SHADOW` is what the control latch holds (R35, R62). -/
  shadowLatch : s.shadowValid = true →
    Memory.read s.mem (s.board.addr .olatCtrl).key = some s.shadow
  /-- A valid `SHADOW` is the last completed control-latch write of the trace (R34, R35). -/
  shadowTrace : s.shadowValid = true →
    (writesTo (s.board.addr .olatCtrl) s.trace).getLast? = some s.shadow
  /-- `DATA_DIR = IN` only where the direction register holds `DIR_ALL_IN` (R36). -/
  dirInput : s.dataDir = .input →
    Memory.read s.mem (s.board.addr .dirData).key = some s.board.raw.dirAllIn
  /-- `DATA_DIR = OUT` only where the direction register holds `DIR_ALL_OUT` (R36). -/
  dirOutput : s.dataDir = .output →
    Memory.read s.mem (s.board.addr .dirData).key = some s.board.raw.dirAllOut
  /-- A constructed Link has a speed (R37, R38). -/
  linkSpeed : s.linkReady = true → s.linkSpeed ≠ none
  /-- No command is in progress between steps (R39, R214). -/
  idle : s.busy = false ∧ s.seqPos = 0
  /-- `RESP` is the last response (R41). -/
  lastResp : s.resp = s.responses.getLast?

end Sys2Proof.Machine
end

