-- ==== Sys2Proof/Certificates/Slice0/Obligations.lean ====
section
/-! DEFINITION. The statements for the provers. A statement about a state ranges over every configuration the
spec admits and over every answer of the environment, since State holds both. -/

open Sys2Proof Sys2Proof.Machine

/-! ### Reset, the step, the whole machine -/

/-- R240: what power-on reset leaves. `Config.shadowPowerOn` is opaque, so SHADOW is unspecified. -/
def Obligations.ResetLeavesPowerOnState : Prop :=
  State.reset.shadow = Config.shadowPowerOn ∧ State.reset.shadowValid = false ∧
    State.reset.dataDir = .unknown ∧ State.reset.linkReady = false ∧ State.reset.linkSpeed = none ∧
    State.reset.busy = false ∧ State.reset.trace = [] ∧ State.reset.resp = none ∧ State.reset.mem = []

/-- The invariant holds at reset. -/
def Obligations.ResetMeetsInvariant : Prop := State.reset.Inv

/-- Every step keeps the invariant: canonical memory, `SHADOW` the last value written and held by the latch
while it is valid, `DATA_DIR` true of the direction register, a constructed Link with a speed, no command in
progress, `RESP` the last response. -/
def Obligations.StepKeepsInvariant : Prop :=
  ∀ s t, s.Inv → step s = .next t → t.Inv

/-- A step of an idle block takes the next command and, where it decodes, runs it. -/
def Obligations.StepRunsDecodedCommand : Prop :=
  ∀ s w rest i, s.busy = false → s.pending = w :: rest → decode w = .ok i →
    step s = exec i (s.takeCommand rest)

/-- A command issued while BUSY = 1 is not started (R214), and a block without a command idles with its state held
(R228, R242). That a step of a state with BUSY = 1 answers the same state is the model's choice (log 8): the rules
say that the command in progress moves on, and here it does so inside its own step. -/
def Obligations.BusyOrIdleBlockHoldsState : Prop :=
  ∀ s, s.busy = true ∨ s.pending = [] → step s = .next s

/-- R202, with R201, R203, R204 and R205: decode, then LINK_READY, then the argument, then the primitives. The
first check that fails gives the response and nothing else changes; past the checks the response is OK,
ShadowUnknown or TransportError, it is TransportError exactly when a primitive failed (R206), and ShadowUnknown
exactly for RDSHADOW without a valid shadow (R140). That one step runs the command from its first check to its
response is the model's choice (log 8). -/
def Obligations.ChecksComeInOrder : Prop :=
  ∀ s w rest, s.busy = false → s.pending = w :: rest →
    (∀ e, decode w = .error e →
      step s = .next ((s.takeCommand rest).answered ⟨.illegalCommand, 0x00⟩)) ∧
    (∀ i, decode w = .ok i →
      (needsLink i = true → s.linkReady = false →
        step s = .next ((s.takeCommand rest).answered ⟨.notConstructed, 0x00⟩)) ∧
      ((needsLink i = true → s.linkReady = true) → argumentOk i = false →
        step s = .next ((s.takeCommand rest).answered ⟨.invalidArgument, 0x00⟩)) ∧
      ((needsLink i = true → s.linkReady = true) → argumentOk i = true →
        ∃ t r, step s = .next t ∧ t.resp = some r ∧
          (r.status = .ok ∨ r.status = .shadowUnknown ∨ r.status = .transportError) ∧
          (r.status = .transportError ↔ ∃ e ∈ newEvents s t, e.isFail = true) ∧
          (r.status = .shadowUnknown ↔ i = .rdshadow ∧ s.shadowValid = false)))

/-- R206: what a failed read and a failed write leave; that a failure skips the rest of its sequence with the
state as it stands and gives the response; and that in a command's trace nothing follows a `Fail`. -/
def Obligations.TransportFailureEndsCommand : Prop :=
  (∀ s r, (s.drawAt 0).fails = true →
    ∃ t, memRead r s = .error .transportError t ∧ t.trace = s.trace ++ [s.board.failed r] ∧ t.mem = s.mem ∧
      KeptShadow s t ∧ t.dataDir = s.dataDir ∧ KeptLink s t) ∧
  (∀ s r v, (s.drawAt 0).fails = true →
    ∃ t, memWrite r v s = .error .transportError t ∧ t.trace = s.trace ++ [s.board.failed r] ∧
      t.expReg r = (if (s.drawAt 0).lands then v else s.expReg r) ∧ KeptElsewhere s t [r] ∧
      t.shadow = s.shadow ∧ t.shadowValid = (if r = .olatCtrl then false else s.shadowValid) ∧
      t.dataDir = (if r = .dirData then .unknown else s.dataDir) ∧ KeptLink s t) ∧
  (∀ (α β : Type) (x : Op α) (f : α → Op β) s t, x s = .error .transportError t →
    (x >>= f) s = .error .transportError t) ∧
  (∀ body s t, body s.start = .error .transportError t →
    runCommand body s = .next (t.finish ⟨.transportError, 0x00⟩)) ∧
  (∀ i s t, exec i s = .next t →
    ∀ before e after, newEvents s t = before ++ e :: after → e.isFail = true →
      after = [] ∧ t.resp = some ⟨.transportError, 0x00⟩)

/-- Every command ends with exactly one response, an error with DATA 0, and leaves the block idle; the
configuration never changes and the commands still waiting keep their place. -/
def Obligations.EveryCommandEndsWithOneResponse : Prop :=
  ∀ i s, ∃ t r events, exec i s = .next t ∧ Ended s t r events ∧ (r.status.isError = true → r.data = 0x00)

/-- A step never takes anything out of the trace or the list of responses, and never changes the configuration.
A run flagged for bus contention stays flagged: the flag and its keeping are the model's choice (log 6). -/
def Obligations.StepOnlyExtendsRecord : Prop :=
  ∀ s t, step s = .next t →
    s.trace <+: t.trace ∧ s.responses <+: t.responses ∧ t.responses.length ≤ s.responses.length + 1 ∧
      t.board = s.board ∧ (s.contention = true → t.contention = true)

/-- The block performs only the accesses R60 lists: it writes the data direction (all inputs or all outputs),
the data latch and the control latch, reads the data input and the control latch, and never touches the
control direction and control input registers. -/
def Obligations.OnlyNamedRegistersAccessed : Prop :=
  ∀ s t, step s = .next t → ∀ e ∈ newEvents s t,
    e = s.board.wr .dirData s.board.raw.dirAllIn ∨ e = s.board.wr .dirData s.board.raw.dirAllOut ∨
    (∃ v, e = s.board.wr .olatData v) ∨ (∃ v, e = s.board.wr .olatCtrl v) ∨
    (∃ v, e = s.board.rd .inData v) ∨ (∃ v, e = s.board.rd .olatCtrl v) ∨
    (∃ r, (r = .dirData ∨ r = .olatData ∨ r = .inData ∨ r = .olatCtrl) ∧ e = s.board.failed r) ∨
    e = s.board.hold

/-- R25: every control-port bit carries exactly one signal, and a configuration with a map that is not injective
is refused. -/
def Obligations.EveryControlBitCarriesOneSignal : Prop :=
  (∀ (b : Board) (i : Fin 8), ∃ x, b.sig x = i ∧ ∀ y, b.sig y = i → y = x) ∧
  (∀ (p : Params) x y, x ≠ y → p.sigmap.bitOf x = p.sigmap.bitOf y → Board.check p = none)

/-! ### Encoding -/

/-- Decoding the word of a command gives the command back, for every command and operand. -/
def Obligations.DecodeOfEncode : Prop := ∀ i, decode (encode i) = .ok i

/-- A legal word is the word of the command it decodes to: no bit of it is ignored. -/
def Obligations.EncodeOfDecode : Prop := ∀ w i, decode w = .ok i → encode i = w

/-- R97: a word is legal exactly when it passes the mask and match test of a row of the opcode table, the row
of the command it decodes to; an illegal one performs no primitive, changes no state but the response, and
answers IllegalCommand. -/
def Obligations.LegalWordsAreTableRows : Prop :=
  (∀ w i, decode w = .ok i → ∃ r ∈ opcodeTable, r.accepts w = true ∧ r.mnemonic = mnemonic i) ∧
  (∀ w, ∀ r ∈ opcodeTable, r.accepts w = true → ∃ i, decode w = .ok i ∧ mnemonic i = r.mnemonic) ∧
  (∀ s w rest, s.busy = false → s.pending = w :: rest → (∀ r ∈ opcodeTable, r.accepts w = false) →
    step s = .next ((s.takeCommand rest).answered ⟨.illegalCommand, 0x00⟩))

/-- The example words of R100. -/
def Obligations.ExampleWordsDecode : Prop :=
  decode 0x20010100 = .ok (.setsig 0x01 0x01) ∧ decode 0x20020000 = .ok (.setsig 0x02 0x00) ∧
  decode 0x30020000 = .ok (.strobe 0x02) ∧ decode 0x60000014 = .ok (.linkinit 20) ∧
  decode 0xC00000AB = .ok (.write 0xAB) ∧ decode 0xF0000001 = .ok (.resetlvl true)

/-- R100 and R101, field by field. A line without operands is its one word; a byte stands in B and a level in B[0];
SETSIG's M names exactly the signals listed and its V holds exactly the levels 1; STROBE's M names exactly the
signals listed; PULSE is the word of STROBE twice, ASSERT and DEASSERT are the SETSIG of the one level, NOP is
RDSHADOW. A line that is not well formed does not assemble, and the words of one that is decode to its commands. -/
def Obligations.AssembledLinesDecode : Prop :=
  (∀ p ∈ [(Source.rddata, (0x00000000 : CmdWord)), (.reldata, 0x40000000), (.rdshadow, 0x50000000),
      (.linkinitd, 0x70000000), (.datapresent, 0x80000000), (.outputready, 0x90000000), (.inten, 0xA0000000),
      (.intdis, 0xB0000000), (.read, 0xD0000000), (.reset, 0xE0000000), (.nop, 0x50000000)],
    assemble p.1 = some [p.2]) ∧
  (∀ n, n < 256 → ∃ b : Byte, b.toNat = n ∧ AssemblesTo (.wrdata n) 0x1 0 0 b ∧
    AssemblesTo (.linkinit n) 0x6 0 0 b ∧ AssemblesTo (.write n) 0xC 0 0 b) ∧
  (∀ n, n < 2 → ∃ b : Byte, b.toNat = n ∧ AssemblesTo (.resetlvl n) 0xF 0 0 b) ∧
  (∀ levels : List (Signal × Nat), (levels.map Prod.fst).Nodup → (∀ p ∈ levels, p.2 < 2) →
    ∃ m v, AssemblesTo (.setsig levels) 0x2 m v 0 ∧
      ∀ x, (m.getLsbD x.id = true ↔ ∃ n, (x, n) ∈ levels) ∧ (v.getLsbD x.id = true ↔ (x, 1) ∈ levels)) ∧
  (∀ names, ∃ m, AssemblesTo (.strobe names) 0x3 m 0 0 ∧ ∀ x, m.getLsbD x.id = true ↔ x ∈ names) ∧
  (∀ x, ∃ w, assemble (.strobe [x]) = some [w] ∧ assemble (.pulse x) = some [w, w]) ∧
  (∀ x, assemble (.assertSig x) = assemble (.setsig [(x, 1)]) ∧
    assemble (.deassertSig x) = assemble (.setsig [(x, 0)])) ∧
  (∀ l, l.wf = false → assemble l = none) ∧
  (∀ l, l.wf = true → ∃ words, assemble l = some words ∧ words.map decode = (expand l).map .ok)

/-- R96: bits 15:12 of the response word are 0, 11:8 the status code of R200, 7:0 the data. -/
def Obligations.ResponseWordLayout : Prop :=
  (∀ r : Response, (responseWord r).extractLsb' 12 4 = 0 ∧
    (responseWord r).extractLsb' 8 4 = statusCode r.status ∧ (responseWord r).extractLsb' 0 8 = r.data) ∧
  statusCode .ok = 0 ∧ statusCode .invalidArgument = 1 ∧ statusCode .unknownSignal = 2 ∧
  statusCode .transportError = 3 ∧ statusCode .notConstructed = 4 ∧ statusCode .illegalCommand = 5 ∧
  statusCode .shadowUnknown = 6

/-! ### Interface commands -/

/-- R120: RDDATA with both transactions completing, with the direction write failing, with the read failing. -/
def Obligations.RddataReadsPins : Prop :=
  decode 0x00000000 = .ok .rddata ∧
  (∀ s, s.quiet 2 → ∃ t, exec .rddata s = .next t ∧
    Ended s t ⟨.ok, (s.drawAt 1).pins⟩
      [s.board.wr .dirData s.board.raw.dirAllIn, s.board.rd .inData (s.drawAt 1).pins] ∧
    t.dataDir = .input ∧ t.expReg .dirData = s.board.raw.dirAllIn ∧ KeptElsewhere s t [.dirData] ∧
    KeptShadow s t ∧ KeptLink s t) ∧
  (∀ s, (s.drawAt 0).fails = true → ∃ t, exec .rddata s = .next t ∧
    Ended s t ⟨.transportError, 0x00⟩ [s.board.failed .dirData] ∧ t.dataDir = .unknown) ∧
  (∀ s, (s.drawAt 0).fails = false → (s.drawAt 1).fails = true → ∃ t, exec .rddata s = .next t ∧
    Ended s t ⟨.transportError, 0x00⟩
      [s.board.wr .dirData s.board.raw.dirAllIn, s.board.failed .inData] ∧ t.dataDir = .input)

/-- R122: WRDATA, with the same three outcomes; a failed latch write leaves the latch old or new. -/
def Obligations.WrdataDrivesByte : Prop :=
  (∀ b, decode (packWord 0x1 0 0 b) = .ok (.wrdata b)) ∧
  (∀ s b, s.quiet 2 → ∃ t, exec (.wrdata b) s = .next t ∧
    Ended s t ⟨.ok, 0x00⟩ [s.board.wr .dirData s.board.raw.dirAllOut, s.board.wr .olatData b] ∧
    t.dataDir = .output ∧ t.dataPins = .driven b ∧ KeptElsewhere s t [.dirData, .olatData] ∧
    KeptShadow s t ∧ KeptLink s t) ∧
  (∀ s b, (s.drawAt 0).fails = true → ∃ t, exec (.wrdata b) s = .next t ∧
    Ended s t ⟨.transportError, 0x00⟩ [s.board.failed .dirData] ∧ t.dataDir = .unknown ∧
    t.expReg .olatData = s.expReg .olatData) ∧
  (∀ s b, (s.drawAt 0).fails = false → (s.drawAt 1).fails = true → ∃ t, exec (.wrdata b) s = .next t ∧
    Ended s t ⟨.transportError, 0x00⟩
      [s.board.wr .dirData s.board.raw.dirAllOut, s.board.failed .olatData] ∧ t.dataDir = .output ∧
    t.expReg .olatData = if (s.drawAt 1).lands then b else s.expReg .olatData)

/-- R125: SETSIG writes every named signal's level in one write over the latch read, and leaves the other bits;
what a failed read and a failed write leave. -/
def Obligations.SetsigWritesNamedLevels : Prop :=
  (∀ m v, decode (packWord 0x2 m v 0) = .ok (.setsig m v)) ∧
  (∀ s m v, s.quiet 2 → ∃ t n, exec (.setsig m v) s = .next t ∧
    Ended s t ⟨.ok, 0x00⟩ [s.board.rd .olatCtrl s.latch, s.board.wr .olatCtrl n] ∧
    ControlWritten s t n ∧ KeptLink s t ∧
    ∀ x, n.getLsbD (s.board.sig x) = if m.getLsbD x.id then v.getLsbD x.id else s.latch.getLsbD (s.board.sig x)) ∧
  (∀ s m v, (s.drawAt 0).fails = true → ∃ t, exec (.setsig m v) s = .next t ∧
    Ended s t ⟨.transportError, 0x00⟩ [s.board.failed .olatCtrl] ∧ t.mem = s.mem ∧ KeptShadow s t) ∧
  (∀ s m v, (s.drawAt 0).fails = false → (s.drawAt 1).fails = true → ∃ t, exec (.setsig m v) s = .next t ∧
    Ended s t ⟨.transportError, 0x00⟩ [s.board.rd .olatCtrl s.latch, s.board.failed .olatCtrl] ∧
    t.shadow = s.shadow ∧ t.shadowValid = false ∧
    t.latch = if (s.drawAt 1).lands then mergeLevels s.board.sig m v s.latch else s.latch)

/-- R130: STROBE inverts the one signal its mask names and holds it; any other mask is InvalidArgument with no
primitive and no state changed; a failed write performs no Wait. -/
def Obligations.StrobeInvertsOneSignal : Prop :=
  (∀ m, decode (packWord 0x3 m 0 0) = .ok (.strobe m)) ∧
  (∀ s m x, popcount m = 1 → m.getLsbD x.id = true → s.quiet 2 → ∃ t n, exec (.strobe m) s = .next t ∧
    Ended s t ⟨.ok, 0x00⟩ [s.board.rd .olatCtrl s.latch, s.board.wr .olatCtrl n, s.board.hold] ∧
    ControlWritten s t n ∧ KeptLink s t ∧
    ∀ y, n.getLsbD (s.board.sig y) = (s.latch.getLsbD (s.board.sig y) ^^ decide (y = x))) ∧
  (∀ s m, popcount m ≠ 1 → exec (.strobe m) s = .next (s.answered ⟨.invalidArgument, 0x00⟩)) ∧
  (∀ s m, popcount m = 1 → (s.drawAt 0).fails = true → ∃ t, exec (.strobe m) s = .next t ∧
    Ended s t ⟨.transportError, 0x00⟩ [s.board.failed .olatCtrl] ∧ t.mem = s.mem ∧ KeptShadow s t) ∧
  (∀ s m x, popcount m = 1 → m.getLsbD x.id = true → (s.drawAt 0).fails = false → (s.drawAt 1).fails = true →
    ∃ t, exec (.strobe m) s = .next t ∧
    Ended s t ⟨.transportError, 0x00⟩ [s.board.rd .olatCtrl s.latch, s.board.failed .olatCtrl] ∧
    t.shadow = s.shadow ∧ t.shadowValid = false ∧
    t.latch = if (s.drawAt 1).lands then invertSignal s.board.sig x s.latch else s.latch)

/-- R135: RELDATA, completing and failing. -/
def Obligations.ReldataReleasesDataPort : Prop :=
  decode 0x40000000 = .ok .reldata ∧
  (∀ s, s.quiet 1 → ∃ t, exec .reldata s = .next t ∧
    Ended s t ⟨.ok, 0x00⟩ [s.board.wr .dirData s.board.raw.dirAllIn] ∧ t.dataDir = .input ∧
    t.dataPins = .tristate ∧ KeptElsewhere s t [.dirData] ∧ KeptShadow s t ∧ KeptLink s t) ∧
  (∀ s, (s.drawAt 0).fails = true → ∃ t, exec .reldata s = .next t ∧
    Ended s t ⟨.transportError, 0x00⟩ [s.board.failed .dirData] ∧ t.dataDir = .unknown)

/-- R140: RDSHADOW answers the shadow where it is valid and ShadowUnknown where it is not, and writes nothing
but the response. -/
def Obligations.RdshadowReportsShadow : Prop :=
  decode 0x50000000 = .ok .rdshadow ∧
  ∀ s, exec .rdshadow s =
    .next (s.answered (if s.shadowValid then ⟨.ok, s.shadow⟩ else ⟨.shadowUnknown, 0x00⟩))

/-- The source's first testable property (95_test_vectors.md L1-1): after a SETSIG that answers OK, RDSHADOW
gives exactly the named levels with every other bit as the latch had it. -/
def Obligations.ShadowReadsBackSetsig : Prop :=
  ∀ s t m v, exec (.setsig m v) s = .next t → AnsweredOk t →
    ∃ u n, exec .rdshadow t = .next u ∧ u.resp = some ⟨.ok, n⟩ ∧
      ∀ x, n.getLsbD (s.board.sig x) = if m.getLsbD x.id then v.getLsbD x.id else s.level x

/-- R247: one STROBE flips its signal, and a second one restores the latch, and the shadow where it was valid. -/
def Obligations.TwoStrobesRestore : Prop :=
  ∀ s x, s.quiet 4 → ∃ t u, exec (.strobe (maskOf [x])) s = .next t ∧ exec (.strobe (maskOf [x])) t = .next u ∧
    AnsweredOk t ∧ AnsweredOk u ∧ t.level x = !s.level x ∧ u.latch = s.latch ∧ u.shadow = s.latch ∧
    (s.Inv → s.shadowValid = true → u.shadow = s.shadow)

/-- R125, R130: SHADOW is never an operand. But for RDSHADOW, a command run in two states that differ only in the
shadow control word, whatever the environment answers, leaves states that differ at most in it. -/
def Obligations.ShadowIsNeverAnOperand : Prop :=
  ∀ s i b v, i ≠ .rdshadow → ∃ t c w, exec i s = .next t ∧ exec i (s.withShadow b v) = .next (t.withShadow c w)

/-- Data-port commands, whatever the environment answers, neither change the shadow, the Link state nor any
register but the data direction and, for WRDATA alone, the data latch. -/
def Obligations.DataPortCommandsKeepControl : Prop :=
  ∀ s t,
    (exec .rddata s = .next t ∨ exec .reldata s = .next t →
      KeptShadow s t ∧ KeptLink s t ∧ KeptElsewhere s t [.dirData]) ∧
    (∀ b, exec (.wrdata b) s = .next t →
      KeptShadow s t ∧ KeptLink s t ∧ KeptElsewhere s t [.dirData, .olatData])

/-- Commands that only write the control latch, whatever the environment answers, keep the data direction and
every register but the control latch; only construction touches the Link state. -/
def Obligations.ControlCommandsKeepDataPort : Prop :=
  ∀ s t, (∀ i, exec i s = .next t → lastSelect i = none → i ≠ .rddata → i ≠ .reldata → (∀ b, i ≠ .wrdata b) →
      t.dataDir = s.dataDir ∧ KeptElsewhere s t [.olatCtrl]) ∧
    (∀ i, exec i s = .next t → constructs i = false → KeptLink s t)

/-! ### Link commands -/

/-- R160: LINKINIT at 10 or 20 makes the four latch writes of construction in order; any other speed is
InvalidArgument and changes nothing; a construction that fails on the way leaves the Link not constructed, with
LINK_SPEED as before where one of the first six transactions failed and at the new speed where the seventh or
eighth did (R38). 10 is LSPD level 0 and 20 is level 1 (R27). -/
def Obligations.LinkinitConstructs : Prop :=
  (∀ b, decode (packWord 0x6 0 0 b) = .ok (.linkinit b)) ∧
  (∀ s b n, speedOf b = some n → s.quiet 8 → ∃ t, exec (.linkinit b) s = .next t ∧
    Ended s t ⟨.ok, 0x00⟩ (s.board.constructEvents n s.latch) ∧
    ControlWritten s t (s.board.constructWords n s.latch).2.2.2 ∧ t.linkReady = true ∧ t.linkSpeed = some n) ∧
  (∀ s b, b ≠ 10 → b ≠ 20 → exec (.linkinit b) s = .next (s.answered ⟨.invalidArgument, 0x00⟩)) ∧
  (∀ s t b n, speedOf b = some n → exec (.linkinit b) s = .next t → ¬ AnsweredOk t → t.linkReady = false) ∧
  (∀ s b n k, speedOf b = some n → k < 8 → s.quiet k → (s.drawAt k).fails = true →
    ∃ t, exec (.linkinit b) s = .next t ∧ t.resp = some ⟨.transportError, 0x00⟩ ∧ t.linkReady = false ∧
      t.linkSpeed = if k < 6 then s.linkSpeed else some n) ∧
  speedOf 10 = some .mbit10 ∧ speedOf 20 = some .mbit20 ∧ speedLevel .mbit10 = false ∧ speedLevel .mbit20 = true

/-- R162: LINKINITD is the construction at the default speed, its errors included. -/
def Obligations.LinkinitdConstructsAtDefault : Prop :=
  decode 0x70000000 = .ok .linkinitd ∧
  (∀ s b, speedOf b = some s.board.raw.defaultLinkSpeed → exec .linkinitd s = exec (.linkinit b) s) ∧
  ∀ s, s.quiet 8 → ∃ t, exec .linkinitd s = .next t ∧
    Ended s t ⟨.ok, 0x00⟩ (s.board.constructEvents s.board.raw.defaultLinkSpeed s.latch) ∧
    ControlWritten s t (s.board.constructWords s.board.raw.defaultLinkSpeed s.latch).2.2.2 ∧
    t.linkReady = true ∧ t.linkSpeed = some s.board.raw.defaultLinkSpeed

/-- R186: a construction that answers OK leaves CSN at 1, RST at 0, LSPD at 0 for 10 Mbit/s and at 1 for 20 Mbit/s
(R27), and the other signals and the data direction as they were. -/
def Obligations.ConstructionLevels : Prop :=
  ∀ s t i n, (∃ b, i = .linkinit b ∧ speedOf b = some n) ∨ (i = .linkinitd ∧ n = s.board.raw.defaultLinkSpeed) →
    exec i s = .next t → AnsweredOk t →
    t.level .csn = true ∧ t.level .rst = false ∧ t.level .lspd = decide (n = .mbit20) ∧
      t.level .ss = s.level .ss ∧ t.level .rs0 = s.level .rs0 ∧ t.level .rs1 = s.level .rs1 ∧
      t.level .rnw = s.level .rnw ∧ t.level .lrst = s.level .lrst ∧ t.dataDir = s.dataDir

/-- R165, R167, R178: the three read accesses perform the events of ACCESS_READ and answer from the byte on the
pins: its bit 0 for the polls, the byte itself for READ. -/
def Obligations.ReadAccessesAnswerFromPins : Prop :=
  ∀ s i sel d,
    (i = .datapresent ∧ sel = .isrRd ∧ d = if (s.drawAt 5).pins.getLsbD 0 then 0x01 else 0x00) ∨
    (i = .outputready ∧ sel = .osrRd ∧ d = if (s.drawAt 5).pins.getLsbD 0 then 0x01 else 0x00) ∨
    (i = .read ∧ sel = .idrRd ∧ d = (s.drawAt 5).pins) → s.linkReady = true → s.quiet 8 →
    let n := s.board.csOffWord (s.board.levelWord .csn false (s.board.selectWord sel s.latch))
    ∃ t, exec i s = .next t ∧ Ended s t ⟨.ok, d⟩ (s.board.readAccessEvents sel s.latch (s.drawAt 5).pins) ∧
      t.latch = n ∧ t.shadow = n ∧ t.shadowValid = true ∧ t.dataDir = .input ∧
      t.expReg .dirData = s.board.raw.dirAllIn ∧ KeptElsewhere s t [.olatCtrl, .dirData] ∧ KeptLink s t

/-- R170, R172: INTEN and INTDIS write 0x02 or 0x00 to the ISR, then to the OSR, each with a chip-select pulse,
and then clear StatusSelect. -/
def Obligations.InterruptControlSequence : Prop :=
  ∀ s i v, (i = .inten ∧ v = 0x02) ∨ (i = .intdis ∧ v = 0x00) → s.linkReady = true → s.quiet 20 →
    let c1 := s.board.selectWord .isrWr s.latch
    let c2 := s.board.selectWord .osrWr c1
    let c3 := s.board.levelWord .ss false c2
    ∃ t, exec i s = .next t ∧
      Ended s t ⟨.ok, 0x00⟩ (s.board.writeAccessEvents .isrWr v s.latch ++
        s.board.writeAccessEvents .osrWr v c1 ++ s.board.updateEvents c2 c3) ∧
      t.latch = c3 ∧ t.shadow = c3 ∧ t.shadowValid = true ∧ t.dataDir = .input ∧ t.expReg .olatData = v ∧
      t.expReg .dirData = s.board.raw.dirAllIn ∧ KeptElsewhere s t [.olatCtrl, .dirData, .olatData] ∧ KeptLink s t

/-- R175: WRITE latches the byte onto the data bus, pulses chip select, releases the bus and clears StatusSelect. -/
def Obligations.WriteSequence : Prop :=
  ∀ s b, s.linkReady = true → s.quiet 11 →
    let c1 := s.board.selectWord .odrWr s.latch
    let c2 := s.board.levelWord .ss false c1
    ∃ t, exec (.write b) s = .next t ∧
      Ended s t ⟨.ok, 0x00⟩ (s.board.writeAccessEvents .odrWr b s.latch ++ s.board.updateEvents c1 c2) ∧
      t.latch = c2 ∧ t.shadow = c2 ∧ t.shadowValid = true ∧ t.dataDir = .input ∧ t.expReg .olatData = b ∧
      t.expReg .dirData = s.board.raw.dirAllIn ∧ KeptElsewhere s t [.olatCtrl, .dirData, .olatData] ∧ KeptLink s t

/-- R181: RESET pulses LinkResetLine and leaves the control word as it was. -/
def Obligations.ResetPulsesLinkResetLine : Prop :=
  ∀ s, s.linkReady = true → s.quiet 4 → ∃ t, exec .reset s = .next t ∧
    Ended s t ⟨.ok, 0x00⟩ (s.board.pulseEvents .lrst s.latch) ∧ ControlWritten s t s.latch ∧ KeptLink s t

/-- R183: RESETLVL gives LinkResetLine the level and keeps the other signals, in one read-modify-write. -/
def Obligations.ResetlvlHoldsLinkResetLine : Prop :=
  ∀ s l, s.linkReady = true → s.quiet 2 → ∃ t n, exec (.resetlvl l) s = .next t ∧
    Ended s t ⟨.ok, 0x00⟩ (s.board.updateEvents s.latch n) ∧ ControlWritten s t n ∧ KeptLink s t ∧
    ∀ x, n.getLsbD (s.board.sig x) = if x = .lrst then l else s.level x

/-- R186: an access command that answers OK from chip select deasserted leaves it deasserted, SS at 0, the data
port an input, RS0, RS1 and RNW at the levels of its last SELECT, and RST, LSPD and LRST unchanged. -/
def Obligations.AccessCommandsLeaveLinkReleased : Prop :=
  ∀ s t i sel, lastSelect i = some sel → s.level .csn = true → exec i s = .next t → AnsweredOk t →
    t.level .csn = true ∧ t.level .ss = false ∧ t.dataDir = .input ∧
    t.level .rs0 = (s.board.raw.regsel.levels sel).rs0 ∧ t.level .rs1 = (s.board.raw.regsel.levels sel).rs1 ∧
    t.level .rnw = (s.board.raw.regsel.levels sel).rnw ∧
    t.level .rst = s.level .rst ∧ t.level .lspd = s.level .lspd ∧ t.level .lrst = s.level .lrst

/-- R255: WRITE, INTEN and INTDIS started with chip select asserted leave it asserted. -/
def Obligations.AssertedChipSelectStaysAsserted : Prop :=
  ∀ s t i, i = .inten ∨ i = .intdis ∨ (∃ b, i = .write b) → s.level .csn = false → exec i s = .next t →
    AnsweredOk t → t.level .csn = false

/-- R156: in no Link command, whatever the environment answers, does CSN change together with RS0, RS1 or RNW, in
a control-latch write that completes or in a failed one that lands. -/
def Obligations.ChipSelectChangesAlone : Prop :=
  ∀ s t i, needsLink i = true ∨ constructs i = true → exec i s = .next t →
    ∀ u ∈ linesMoved s t,
      wordLevel s.board u.1 .csn ≠ wordLevel s.board u.2 .csn → keepsSelect s.board u.1 u.2 = true

/-- R187: in a Link command started with chip select deasserted, whatever the environment answers, the register
select lines are not changed while chip select is asserted, by a write that completes or by a failed one that
lands; and a command that accesses no adapter register does not assert it. -/
def Obligations.SelectLinesSettledUnderChipSelect : Prop :=
  ∀ s t i, needsLink i = true ∨ constructs i = true → s.level .csn = true → exec i s = .next t →
    ∀ u ∈ linesMoved s t, selectSettled s.board u = true ∧
      (lastSelect i = none → wordLevel s.board u.2 .csn = true)

/-- The reading of 90_conflicts.md C10: an INTEN that answers OK makes exactly two data-latch writes, both 0x02,
and an INTDIS exactly two of 0x00. -/
def Obligations.InterruptControlLatchesTwice : Prop :=
  ∀ s t, AnsweredOk t →
    (exec .inten s = .next t → writesTo (s.board.addr .olatData) (newEvents s t) = [0x02, 0x02]) ∧
    (exec .intdis s = .next t → writesTo (s.board.addr .olatData) (newEvents s t) = [0x00, 0x00])

/-- R260: the transactions and waits of every command that answers OK. -/
def Obligations.TransactionCounts : Prop :=
  ∀ s t i, exec i s = .next t → AnsweredOk t →
    ((newEvents s t).countP Event.isTransaction, (newEvents s t).countP fun e => !e.isTransaction) =
      transactionTable i

/-- The steady state of R251: a Link command run from a booted state without contention, with selectors whose
writes keep RNW at 0 (R27), ends booted and without contention when it answers OK. The flag is the model's (log 6). -/
def Obligations.BootedLinkStaysFreeOfContention : Prop :=
  ∀ s t i, (s.board.raw.regsel.levels .odrWr).rnw = false → (s.board.raw.regsel.levels .isrWr).rnw = false →
    (s.board.raw.regsel.levels .osrWr).rnw = false → needsLink i = true → s.booted → s.contention = false →
    exec i s = .next t → AnsweredOk t → t.booted ∧ t.contention = false

/-- The window of R251: a read access that answers OK with the data port not an input at its start is flagged. The
flag is the model's (log 6). -/
def Obligations.ReadAccessContentionIsFlagged : Prop :=
  ∀ s t i sel, i = .datapresent ∨ i = .outputready ∨ i = .read → lastSelect i = some sel →
    (s.board.raw.regsel.levels sel).rnw = true → s.dataDir ≠ .input → exec i s = .next t → AnsweredOk t →
    t.contention = true

/-- With the adapter reference model of R70 and the default REGSEL as premises: a WRITE that answers OK from chip
select deasserted hands the adapter exactly its byte, and INTEN and INTDIS set and clear both interrupt enables.
That a status register is written on the rising edge of CSN too, where R70 says so of the output data register
only, is the model's choice (log 7). -/
def Obligations.ReferenceAdapterTakesWrittenBytes : Prop :=
  ∀ s t, s.board.raw.regsel = .standard → s.level .csn = true → AnsweredOk t →
    let a := adapterRun s.board (adapterAt s) (newEvents s t)
    (∀ b, exec (.write b) s = .next t → a.sent = [some b] ∧ a.certain = true) ∧
    (∀ i e, (i = .inten ∧ e = true) ∨ (i = .intdis ∧ e = false) → exec i s = .next t →
      a.inputStatus = ⟨some e, true⟩ ∧ a.outputStatus = ⟨some e, true⟩ ∧ a.sent = [] ∧ a.certain = true)

/-- With the same premises, for an adapter in any state and whatever holds of it at each event: a poll that answers
OK, of a status register that has not been written, is one the adapter admits exactly when its answer says whether
a byte was waiting, or could be taken, at the sixth transaction, the read of the pins. After a write of that
register the adapter admits every answer, and it admits every answer of READ. Whether it has been written is read
off after the poll's first transaction, the read of the latch, which settles a failed write before it. That bit 0
stays a draw after a status write is the model's choice (log 7). -/
def Obligations.ReferenceAdapterAnswersPolls : Prop :=
  ∀ s t a facts, s.board.raw.regsel = .standard → AnsweredOk t →
    let seen := adapterEvent s.board a (s.board.rd .olatCtrl s.latch)
    (exec .datapresent s = .next t → (adapterAdmits s.board facts 0 a (newEvents s t) = true ↔
      seen.inputStatus.written = true ∨ t.resp = some ⟨.ok, if (facts 5).byteWaiting then 0x01 else 0x00⟩)) ∧
    (exec .outputready s = .next t → (adapterAdmits s.board facts 0 a (newEvents s t) = true ↔
      seen.outputStatus.written = true ∨ t.resp = some ⟨.ok, if (facts 5).canTake then 0x01 else 0x00⟩)) ∧
    (exec .read s = .next t → adapterAdmits s.board facts 0 a (newEvents s t) = true)

/-- With the same premises, from chip select deasserted: where the write that raises CSN at the end of the first
register access of INTEN, INTDIS or WRITE fails, the control pins are not known, and the next read of the latch
settles whether the adapter has taken the byte: it has exactly where the write landed (R206, I6, R62). That a status
register is written on the rising edge of CSN too is the model's choice (log 7). -/
def Obligations.ReferenceAdapterAfterFailedRelease : Prop :=
  ∀ s, s.board.raw.regsel = .standard → s.level .csn = true → s.linkReady = true → s.quiet 7 →
    (s.drawAt 7).fails = true →
    (∀ i e, (i = .inten ∧ e = true) ∨ (i = .intdis ∧ e = false) →
      ∃ t, exec i s = .next t ∧ t.resp = some ⟨.transportError, 0x00⟩ ∧
        let a := adapterRun s.board (adapterAt s) (newEvents s t)
        let seen := adapterEvent s.board a (s.board.rd .olatCtrl t.latch)
        a.control = none ∧ seen.inputStatus = (if (s.drawAt 7).lands then ⟨some e, true⟩ else ⟨none, false⟩) ∧
          seen.outputStatus = ⟨none, false⟩ ∧ seen.sent = [] ∧ seen.certain = true) ∧
    (∀ b, ∃ t, exec (.write b) s = .next t ∧ t.resp = some ⟨.transportError, 0x00⟩ ∧
      let a := adapterRun s.board (adapterAt s) (newEvents s t)
      let seen := adapterEvent s.board a (s.board.rd .olatCtrl t.latch)
      a.control = none ∧ seen.sent = (if (s.drawAt 7).lands then [some b] else []) ∧
        seen.inputStatus = ⟨none, false⟩ ∧ seen.outputStatus = ⟨none, false⟩ ∧ seen.certain = true)

/-- A failed read of the control latch changes nothing the adapter has (R206): where the first transaction of a
command that begins with that read fails, the adapter is as before, in any state in which no latch write is due. -/
def Obligations.ReferenceAdapterKeptByFailedReads : Prop :=
  ∀ s i a, needsLink i = true ∨ constructs i = true ∨ (∃ m v, i = .setsig m v) ∨ (∃ m, i = .strobe m) →
    (needsLink i = true → s.linkReady = true) → argumentOk i = true → (s.drawAt 0).fails = true →
    a.writeNext = false →
    ∃ t, exec i s = .next t ∧ t.resp = some ⟨.transportError, 0x00⟩ ∧
      adapterRun s.board a (newEvents s t) = a
end

