-- ==== Sys2Proof/Laws/Board.lean ====
section
/-! SUPPORT. What a well-formed configuration gives (00_scope.md R6, 10_state.md R25): different registers at
different addresses, different signals at different bits. -/

namespace Sys2Proof

variable (b : Board)

theorem Board.wf_parts : b.raw.mapsOk = true ∧ b.raw.devicesOk = true ∧ b.raw.addressesOk = true ∧
    b.raw.directionsOk = true ∧ b.raw.holdOk = true := by
  simpa [Params.wf, and_assoc] using b.ok

/-- The six named registers stand at six addresses. -/
theorem Board.addr_injective {r q : Reg} (h : b.addr r = b.addr q) : r = q := by
  have ha := (Board.wf_parts b).2.2.1
  simp only [Params.addressesOk, decide_eq_true_eq] at ha
  exact List.inj_on_of_nodup_map ha (by cases r <;> simp [Reg.all]) (by cases q <;> simp [Reg.all]) h

/-- The address an event of a register carries is no other register's. -/
theorem Board.addr_fields_ne {r q : Reg} (h : r ≠ q) : (⟨(b.addr r).dev, (b.addr r).reg⟩ : ExpAddr) ≠ b.addr q :=
  fun e => h (b.addr_injective e)

theorem ExpAddr.key_injective {a c : ExpAddr} (h : a.key = c.key) : a = c := by
  have ha := a.reg.isLt
  have hc := c.reg.isLt
  simp only [ExpAddr.key] at h
  cases a; cases c
  simp only [ExpAddr.mk.injEq]
  constructor <;> apply BitVec.eq_of_toNat_eq <;> simp only at * <;> omega

/-- Different named registers have different memory cells. -/
theorem Board.key_injective {r q : Reg} (h : (b.addr r).key = (b.addr q).key) : r = q :=
  b.addr_injective (ExpAddr.key_injective h)

@[simp] theorem Board.addr_eq_iff (r q : Reg) : b.addr r = b.addr q ↔ r = q :=
  ⟨b.addr_injective, fun h => h ▸ rfl⟩

@[simp] theorem Board.key_eq_iff (r q : Reg) : (b.addr r).key = (b.addr q).key ↔ r = q :=
  ⟨b.key_injective, fun h => h ▸ rfl⟩

/-- Every key lies inside the register space. -/
theorem ExpAddr.key_lt (a : ExpAddr) : a.key < Machine.addressLimit := by
  have hd := a.dev.isLt
  have hr := a.reg.isLt
  simp only [ExpAddr.key, Machine.addressLimit]
  omega

/-- R25: two signals never share a control-port bit. -/
theorem Board.sig_injective {x y : Signal} (h : b.sig x = b.sig y) : x = y := by
  have hm := (Board.wf_parts b).1
  simp only [Params.mapsOk, SignalMap.injective, Bool.and_eq_true, decide_eq_true_eq] at hm
  have hn : (Signal.all.map b.raw.sigmap.bitOf).Nodup := by
    unfold Params.sigmap
    split
    · exact hm.1
    · exact hm.2
  exact List.inj_on_of_nodup_map hn (by cases x <;> simp [Signal.all]) (by cases y <;> simp [Signal.all]) h

@[simp] theorem Board.sig_eq_iff (x y : Signal) : b.sig x = b.sig y ↔ x = y :=
  ⟨b.sig_injective, fun h => h ▸ rfl⟩

/-- All-inputs and all-outputs are different direction values. -/
theorem Board.dirAllIn_ne_dirAllOut : b.raw.dirAllIn ≠ b.raw.dirAllOut := by
  simpa [Params.directionsOk] using (Board.wf_parts b).2.2.2.1

end Sys2Proof
end

