-- ==== Sys2Proof/Laws/Adapter.lean ====
section
/-! SUPPORT. What the adapter reference model does with each event of the block's trace, and that a run and an
admitted list go piece by piece. -/

namespace Sys2Proof.Machine

variable (b : Board) (a : AdapterView)

@[simp] theorem adapterEvent_wr_olatCtrl (v : Byte) :
    adapterEvent b a (b.wr .olatCtrl v) = controlWritten b a v := by
  simp [adapterEvent, Board.wr]

@[simp] theorem adapterEvent_rd_olatCtrl (v : Byte) : adapterEvent b a (b.rd .olatCtrl v) = controlSeen b a v := by
  simp [adapterEvent, Board.rd]

@[simp] theorem adapterEvent_failed_olatCtrl : adapterEvent b a (b.failed .olatCtrl) = controlFails b a := by
  simp [adapterEvent, Board.failed]

/-- A failed read of the control latch changes nothing. -/
theorem controlFails_of_read (h : a.writeNext = false) : controlFails b a = a := by
  simp [controlFails, h]

/-- A failed write of it leaves the control pins to the next read. -/
theorem controlFails_of_write {c : Byte} (h : a.writeNext = true) (hc : a.control = some c) :
    controlFails b a = { a with control := none, writeNext := false, doubt := some ⟨c, drivenByte b a⟩ } := by
  simp [controlFails, h, hc]

@[simp] theorem adapterEvent_rd_inData (v : Byte) : adapterEvent b a (b.rd .inData v) = a := by
  simp [adapterEvent, Board.rd, Board.addr_fields_ne b (show Reg.inData ≠ .olatCtrl by decide)]

@[simp] theorem adapterEvent_wr_dirData (v : Byte) :
    adapterEvent b a (b.wr .dirData v) = { a with direction := some v } := by
  simp [adapterEvent, Board.wr, Board.addr_fields_ne b (show Reg.dirData ≠ .olatCtrl by decide)]

@[simp] theorem adapterEvent_wr_olatData (v : Byte) :
    adapterEvent b a (b.wr .olatData v) = { a with latch := some v } := by
  simp [adapterEvent, Board.wr, Board.addr_fields_ne b (show Reg.olatData ≠ .olatCtrl by decide),
    Board.addr_fields_ne b (show Reg.olatData ≠ .dirData by decide)]

@[simp] theorem adapterEvent_hold : adapterEvent b a b.hold = a := rfl

@[simp] theorem adapterRun_nil : adapterRun b a [] = a := rfl

@[simp] theorem adapterRun_cons (e : Event) (l : List Event) :
    adapterRun b a (e :: l) = adapterRun b (adapterEvent b a e) l := rfl

theorem adapterRun_append (l k : List Event) :
    adapterRun b a (l ++ k) = adapterRun b (adapterRun b a l) k := by
  simp [adapterRun]

/-- A read-modify-write of the control latch, after whatever its read settles. -/
theorem adapterRun_updateEvents (c n : Byte) : adapterRun b a (b.updateEvents c n) =
    { controlEdge b (controlSeen b a c) c n (drivenByte b (controlSeen b a c)) with
      control := some n, writeNext := false, doubt := none } := by
  simp [Board.updateEvents, controlWritten, controlSeen]

/-- With no failed write before it the read of the latch settles nothing. -/
theorem controlSeen_of_settled (n : Byte) (h : a.doubt = none) :
    controlSeen b a n = { a with control := some n, writeNext := true, doubt := none } := by
  simp [controlSeen, h]

/-- Nothing is taken where CSN was at 1 before. -/
theorem controlEdge_of_high {c n : Byte} {v : Option Byte} (h : wordLevel b c .csn = true) :
    controlEdge b a c n v = a := by
  simp [controlEdge, h]

/-- Nothing is taken where CSN is at 0 after. -/
theorem controlEdge_to_low {c n : Byte} {v : Option Byte} (h : wordLevel b n .csn = false) :
    controlEdge b a c n v = a := by
  simp [controlEdge, h]

/-- Where CSN rises, the byte on the pins goes to the register the old control word selects. -/
theorem controlEdge_rises {c n : Byte} {v : Option Byte} {sel : Selector} (h0 : wordLevel b c .csn = false)
    (h1 : wordLevel b n .csn = true) (ht : accessTargets b c = [sel]) : controlEdge b a c n v = takeByte a v sel := by
  simp [controlEdge, endAccess, h0, h1, ht]

/-- A read-modify-write that does not raise CSN moves the control pins and takes nothing. -/
theorem adapterRun_updateEvents_kept {c n : Byte}
    (h : wordLevel b c .csn = true ∨ wordLevel b n .csn = false) : adapterRun b a (b.updateEvents c n) =
      { controlSeen b a c with control := some n, writeNext := false, doubt := none } := by
  rw [adapterRun_updateEvents]
  rcases h with h | h
  · rw [controlEdge_of_high b _ h]
  · rw [controlEdge_to_low b _ h]

/-- One that raises CSN hands the byte driven to the register selected. -/
theorem adapterRun_updateEvents_rises {c n : Byte} {sel : Selector} (hd : a.doubt = none)
    (h0 : wordLevel b c .csn = false) (h1 : wordLevel b n .csn = true) (ht : accessTargets b c = [sel]) :
    adapterRun b a (b.updateEvents c n) =
      { takeByte a (drivenByte b a) sel with control := some n, writeNext := false, doubt := none } := by
  rw [adapterRun_updateEvents, controlSeen_of_settled b a c hd, controlEdge_rises b _ h0 h1 ht]
  cases sel <;> rfl

/-- Under the default `REGSEL` a control word with a selector's levels has those of no other. -/
theorem accessTargets_standard {w : Byte} {sel : Selector} (hr : b.raw.regsel = .standard)
    (h1 : wordLevel b w .rs1 = (RegSel.standard.levels sel).rs1)
    (h0 : wordLevel b w .rs0 = (RegSel.standard.levels sel).rs0)
    (hw : wordLevel b w .rnw = (RegSel.standard.levels sel).rnw) : accessTargets b w = [sel] := by
  have e : selects b w = fun x =>
      (RegSel.standard.levels x).rs1 == (RegSel.standard.levels sel).rs1 &&
      (RegSel.standard.levels x).rs0 == (RegSel.standard.levels sel).rs0 &&
      (RegSel.standard.levels x).rnw == (RegSel.standard.levels sel).rnw := by
    funext x
    simp only [selects, hr, h1, h0, hw]
  rw [accessTargets, e]
  cases sel <;> rfl

theorem adapterAdmits_append (facts : Nat → AdapterFacts) (k : Nat) (l m : List Event) :
    adapterAdmits b facts k a (l ++ m) =
      (adapterAdmits b facts k a l && adapterAdmits b facts (k + l.length) (adapterRun b a l) m) := by
  induction l generalizing k a with
  | nil => simp [adapterAdmits]
  | cons e l ih =>
    simp only [List.cons_append, adapterAdmits, ih, Bool.and_assoc, List.length_cons, adapterRun_cons,
      Nat.add_comm l.length 1, Nat.add_assoc]

/-- A read-modify-write of the control latch holds no answer of the adapter. -/
theorem adapterAdmits_updateEvents (facts : Nat → AdapterFacts) (k : Nat) (c n : Byte) :
    adapterAdmits b facts k a (b.updateEvents c n) = true := by
  simp [adapterAdmits, Board.updateEvents, Board.rd, Board.wr, eventAdmitted,
    Board.addr_fields_ne b (show Reg.olatCtrl ≠ .inData by decide)]

end Sys2Proof.Machine
end

