-- ==== Sys2Proof/Laws/Decode.lean ====
section
/-! SUPPORT. The fields of a packed command word and the word made of a word's fields (30_encoding.md R90). -/

namespace Sys2Proof

section pack
variable (op : BitVec 4) (m v b : Byte)

@[simp] theorem opField_pack : opField (packWord op m v b) = op := by
  apply BitVec.eq_of_getLsbD_eq
  intro i hi
  simp only [opField, packWord, BitVec.getLsbD_extractLsb', BitVec.getLsbD_append, hi]
  have : ¬ 28 + i < 8 ∧ ¬ 28 + i - 8 < 8 ∧ ¬ 28 + i - 8 - 8 < 8 ∧ ¬ 28 + i - 8 - 8 - 8 < 4 := by omega
  simp [this, show 28 + i - 8 - 8 - 8 - 4 = i by omega]

@[simp] theorem subField_pack : subField (packWord op m v b) = 0 := by
  apply BitVec.eq_of_getLsbD_eq
  intro i hi
  simp only [subField, packWord, BitVec.getLsbD_extractLsb', BitVec.getLsbD_append, hi]
  have : ¬ 24 + i < 8 ∧ ¬ 24 + i - 8 < 8 ∧ ¬ 24 + i - 8 - 8 < 8 ∧ 24 + i - 8 - 8 - 8 < 4 := by omega
  simp [this]

@[simp] theorem maskField_pack : maskField (packWord op m v b) = m := by
  apply BitVec.eq_of_getLsbD_eq
  intro i hi
  simp only [maskField, packWord, BitVec.getLsbD_extractLsb', BitVec.getLsbD_append, hi]
  have : ¬ 16 + i < 8 ∧ ¬ 16 + i - 8 < 8 ∧ 16 + i - 8 - 8 < 8 := by omega
  simp [this, show 16 + i - 8 - 8 = i by omega]
  intro h
  omega

@[simp] theorem valueField_pack : valueField (packWord op m v b) = v := by
  apply BitVec.eq_of_getLsbD_eq
  intro i hi
  simp only [valueField, packWord, BitVec.getLsbD_extractLsb', BitVec.getLsbD_append, hi]
  have : ¬ 8 + i < 8 ∧ 8 + i - 8 < 8 := by omega
  simp [this, show 8 + i - 8 = i by omega]
  intro h
  omega

@[simp] theorem byteField_pack : byteField (packWord op m v b) = b := by
  apply BitVec.eq_of_getLsbD_eq
  intro i hi
  simp only [byteField, packWord, BitVec.getLsbD_extractLsb', BitVec.getLsbD_append, hi]
  simp
  intro h
  omega

end pack

/-- A word is the pack of its fields where SUB is 0. -/
theorem pack_fields (w : CmdWord) (h : subField w = 0) :
    packWord (opField w) (maskField w) (valueField w) (byteField w) = w := by
  apply BitVec.eq_of_getLsbD_eq
  intro i hi
  simp only [packWord, opField, maskField, valueField, byteField, BitVec.getLsbD_append,
    BitVec.getLsbD_extractLsb']
  have hs (j : Nat) (hj : j < 4) : w.getLsbD (24 + j) = false := by
    have := congrArg (fun x => BitVec.getLsbD x j) h
    simpa [subField, BitVec.getLsbD_extractLsb', hj] using this
  split
  · next h1 => simp [h1]
  · split
    · next h2 => simp [h2, show 8 + (i - 8) = i by omega]
    · split
      · next h3 => simp [h3, show 16 + (i - 8 - 8) = i by omega]
      · split
        · next h4 =>
          have := hs _ h4
          rw [show 24 + (i - 8 - 8 - 8) = i by omega] at this
          simp [this]
        · next h5 =>
          have : i - 8 - 8 - 8 - 4 < 4 := by omega
          simp [this, show 28 + (i - 8 - 8 - 8 - 4) = i by omega]

/-- Two words with the same five fields are equal. -/
theorem word_ext {w u : CmdWord} (ho : opField w = opField u) (hs : subField w = subField u)
    (hm : maskField w = maskField u) (hv : valueField w = valueField u) (hb : byteField w = byteField u) :
    w = u := by
  have bits {n : Nat} {k : Nat} (h : w.extractLsb' k n = u.extractLsb' k n) (j : Nat) (hj : j < n) :
      w.getLsbD (k + j) = u.getLsbD (k + j) := by
    have := congrArg (fun x => BitVec.getLsbD x j) h
    simpa [BitVec.getLsbD_extractLsb', hj] using this
  apply BitVec.eq_of_getLsbD_eq
  intro i hi
  by_cases h1 : i < 8
  · simpa using bits hb i h1
  by_cases h2 : i < 16
  · simpa [show 8 + (i - 8) = i by omega] using bits hv (i - 8) (by omega)
  by_cases h3 : i < 24
  · simpa [show 16 + (i - 16) = i by omega] using bits hm (i - 16) (by omega)
  by_cases h4 : i < 28
  · simpa [show 24 + (i - 24) = i by omega] using bits hs (i - 24) (by omega)
  · simpa [show 28 + (i - 28) = i by omega] using bits ho (i - 28) (by omega)

section masked
variable (w u : CmdWord)

@[simp] theorem opField_and : opField (w &&& u) = opField w &&& opField u := by
  apply BitVec.eq_of_getLsbD_eq; intro i hi; simp [opField, hi]
@[simp] theorem subField_and : subField (w &&& u) = subField w &&& subField u := by
  apply BitVec.eq_of_getLsbD_eq; intro i hi; simp [subField, hi]
@[simp] theorem maskField_and : maskField (w &&& u) = maskField w &&& maskField u := by
  apply BitVec.eq_of_getLsbD_eq; intro i hi; simp [maskField, hi]
@[simp] theorem valueField_and : valueField (w &&& u) = valueField w &&& valueField u := by
  apply BitVec.eq_of_getLsbD_eq; intro i hi; simp [valueField, hi]
@[simp] theorem byteField_and : byteField (w &&& u) = byteField w &&& byteField u := by
  apply BitVec.eq_of_getLsbD_eq; intro i hi; simp [byteField, hi]

/-- The opcode table's test, field by field (R97). -/
theorem accepts_iff (r : OpRow) : r.accepts w = true ↔
    opField w &&& opField r.mask = opField r.pattern ∧ subField w &&& subField r.mask = subField r.pattern ∧
    maskField w &&& maskField r.mask = maskField r.pattern ∧
    valueField w &&& valueField r.mask = valueField r.pattern ∧
    byteField w &&& byteField r.mask = byteField r.pattern := by
  simp only [OpRow.accepts, beq_iff_eq]
  refine ⟨fun h => by simp [← h], fun ⟨h1, h2, h3, h4, h5⟩ => word_ext ?_ ?_ ?_ ?_ ?_⟩ <;> simpa

end masked

/-! ### When a format decodes (R97, R102) -/

section formats
variable {w : CmdWord} {i : Instr}

theorem decodeN_ok {j : Instr} : decodeN j w = .ok i ↔
    maskField w = 0 ∧ valueField w = 0 ∧ byteField w = 0 ∧ i = j := by
  unfold decodeN
  split_ifs <;> simp_all [eq_comm]

theorem decodeB_ok {f : Byte → Instr} : decodeB f w = .ok i ↔
    maskField w = 0 ∧ valueField w = 0 ∧ i = f (byteField w) := by
  unfold decodeB
  split_ifs <;> simp_all [eq_comm]

theorem decodeMV_ok {f : Byte → Byte → Instr} : decodeMV f w = .ok i ↔
    byteField w = 0 ∧ i = f (maskField w) (valueField w) := by
  unfold decodeMV
  split_ifs <;> simp_all [eq_comm]

theorem decodeM_ok {f : Byte → Instr} : decodeM f w = .ok i ↔
    valueField w = 0 ∧ byteField w = 0 ∧ i = f (maskField w) := by
  unfold decodeM
  split_ifs <;> simp_all [eq_comm]

theorem decodeL_ok {f : Bool → Instr} : decodeL f w = .ok i ↔
    maskField w = 0 ∧ valueField w = 0 ∧ ∃ l : Bool, byteField w = (if l then 1 else 0) ∧ i = f l := by
  unfold decodeL
  by_cases hm : maskField w = 0
  · by_cases hv : valueField w = 0
    · by_cases h0 : byteField w = 0
      · simp [hm, hv, h0, eq_comm]
      · by_cases h1 : byteField w = 1
        · simp [hm, hv, h1, eq_comm]
        · simp_all
    · simp_all
  · simp_all

end formats

/-- The sixteen opcodes (R91). -/
theorem opField_cases (w : CmdWord) :
    opField w = 0x0 ∨ opField w = 0x1 ∨ opField w = 0x2 ∨ opField w = 0x3 ∨ opField w = 0x4 ∨ opField w = 0x5 ∨
    opField w = 0x6 ∨ opField w = 0x7 ∨ opField w = 0x8 ∨ opField w = 0x9 ∨ opField w = 0xA ∨ opField w = 0xB ∨
    opField w = 0xC ∨ opField w = 0xD ∨ opField w = 0xE ∨ opField w = 0xF := by
  generalize opField w = o
  revert o
  decide

/-- A legal word has SUB 0 and decodes by the format of its opcode. -/
theorem decode_ok {w : CmdWord} {i : Instr} (h : decode w = .ok i) : subField w = 0 ∧
    ((opField w = 0x0 ∧ decodeN .rddata w = .ok i) ∨ (opField w = 0x1 ∧ decodeB .wrdata w = .ok i) ∨
     (opField w = 0x2 ∧ decodeMV .setsig w = .ok i) ∨ (opField w = 0x3 ∧ decodeM .strobe w = .ok i) ∨
     (opField w = 0x4 ∧ decodeN .reldata w = .ok i) ∨ (opField w = 0x5 ∧ decodeN .rdshadow w = .ok i) ∨
     (opField w = 0x6 ∧ decodeB .linkinit w = .ok i) ∨ (opField w = 0x7 ∧ decodeN .linkinitd w = .ok i) ∨
     (opField w = 0x8 ∧ decodeN .datapresent w = .ok i) ∨ (opField w = 0x9 ∧ decodeN .outputready w = .ok i) ∨
     (opField w = 0xA ∧ decodeN .inten w = .ok i) ∨ (opField w = 0xB ∧ decodeN .intdis w = .ok i) ∨
     (opField w = 0xC ∧ decodeB .write w = .ok i) ∨ (opField w = 0xD ∧ decodeN .read w = .ok i) ∨
     (opField w = 0xE ∧ decodeN .reset w = .ok i) ∨ (opField w = 0xF ∧ decodeL .resetlvl w = .ok i)) := by
  unfold decode at h
  split at h
  · cases h
  · next hs =>
    refine ⟨Decidable.not_not.1 hs, ?_⟩
    rcases opField_cases w with o | o | o | o | o | o | o | o | o | o | o | o | o | o | o | o <;>
      (rw [o] at h ⊢; simpa using h)

/-! The masks of an assembler line (R100). -/

/-- `n << id(y)` for a level n: bit id(x) of it is set exactly where x is y and n is 1. -/
theorem getLsbD_shift_id (x y : Signal) {n : Nat} (hn : n < 2) :
    (BitVec.ofNat 8 n <<< y.id).getLsbD x.id = (decide (x = y) && n == 1) := by
  have h : n = 0 ∨ n = 1 := by omega
  rcases h with rfl | rfl <;> cases x <;> cases y <;> decide

theorem getLsbD_foldl_idMask (l : List Signal) (m : Byte) (x : Signal) :
    (l.foldl (fun m x => m ||| (1#8 <<< x.id)) m).getLsbD x.id = true ↔ m.getLsbD x.id = true ∨ x ∈ l := by
  induction l generalizing m with
  | nil => simp
  | cons y l ih =>
    rw [List.foldl_cons, ih, BitVec.getLsbD_or, getLsbD_shift_id x y (n := 1) (by decide)]
    simp [-BitVec.getLsbD_eq_getElem, or_assoc]

/-- The mask of a list of names has bit id(x) set exactly where the list names x. -/
theorem getLsbD_idMask (l : List Signal) (x : Signal) : (idMask l).getLsbD x.id = true ↔ x ∈ l := by
  rw [idMask, getLsbD_foldl_idMask]
  simp

theorem getLsbD_foldl_levelBits {l : List (Signal × Nat)} (h : ∀ p ∈ l, p.2 < 2) (m : Byte) (x : Signal) :
    (l.foldl (fun v p => v ||| (BitVec.ofNat 8 p.2 <<< p.1.id)) m).getLsbD x.id = true ↔
      m.getLsbD x.id = true ∨ (x, 1) ∈ l := by
  induction l generalizing m with
  | nil => simp
  | cons p l ih =>
    rw [List.foldl_cons, ih fun q hq => h q (by simp [hq]), BitVec.getLsbD_or,
      getLsbD_shift_id x p.1 (h p (by simp))]
    simp [-BitVec.getLsbD_eq_getElem, or_assoc, Prod.ext_iff, eq_comm (a := p.2)]

/-- The V field of a list of levels has bit id(x) set exactly where the list gives x the level 1. -/
theorem getLsbD_levelBits {l : List (Signal × Nat)} (h : ∀ p ∈ l, p.2 < 2) (x : Signal) :
    (levelBits l).getLsbD x.id = true ↔ (x, 1) ∈ l := by
  rw [levelBits, getLsbD_foldl_levelBits h]
  simp

/-- A well-formed line that stands for one command assembles to the fields of its word. -/
theorem assemblesTo_pack {l : Source} {op : BitVec 4} {m v b : Byte} (hl : l.wf = true)
    (h : (expand l).map encode = [packWord op m v b]) : AssemblesTo l op m v b :=
  ⟨packWord op m v b, by simp [assemble, hl, h], by simp, by simp, by simp, by simp, by simp⟩

end Sys2Proof
end

