-- ==== Sys2Proof/Laws/Operands.lean ====
section
/-! SUPPORT. The bits of masks and control words (30_encoding.md R92, 40_interface.md R125, R130). -/

namespace Sys2Proof.Machine

theorem getLsbD_bit (i j : Nat) (h : i < 8) : (bit i).getLsbD j = decide (j = i) := by
  simp only [bit, BitVec.getLsbD_shiftLeft, BitVec.getLsbD_one]
  by_cases hj : j = i
  · simp [hj, h]
  · have : ¬ (j < 8 ∧ ¬ j < i ∧ j - i = 0) := by omega
    simp only [hj, decide_false, Bool.and_eq_false_imp, Bool.and_eq_true, decide_eq_true_eq]
    intro h1
    simp only [decide_eq_false_iff_not, Bool.not_eq_true'] at *
    omega

/-- Which bits an OR of single bits holds. -/
theorem getLsbD_foldl_bit (f : Signal → Nat) (hf : ∀ x, f x < 8) (l : List Signal) (m : Byte) (i : Nat) :
    (l.foldl (fun acc x => acc ||| bit (f x)) m).getLsbD i = (m.getLsbD i || l.any fun x => decide (f x = i)) := by
  induction l generalizing m with
  | nil => simp
  | cons x l ih =>
    have hx : decide (i = f x) = decide (f x = i) := by simp [eq_comm]
    simp [ih, getLsbD_bit _ _ (hf x), hx, Bool.or_assoc]

theorem Signal.id_lt (x : Signal) : x.id < 8 := by cases x <;> decide

theorem Signal.id_injective {x y : Signal} (h : x.id = y.id) : x = y := by
  cases x <;> cases y <;> first | rfl | cases h

theorem Signal.mem_all (x : Signal) : x ∈ Signal.all := by cases x <;> simp [Signal.all]

@[simp] theorem mem_namedSignals (m : Byte) (x : Signal) : x ∈ namedSignals m ↔ m.getLsbD x.id = true := by
  simp [namedSignals, Signal.mem_all]

/-- The mask names exactly the listed signals. -/
theorem getLsbD_maskOf (l : List Signal) (x : Signal) : (maskOf l).getLsbD x.id = decide (x ∈ l) := by
  rw [maskOf, getLsbD_foldl_bit _ Signal.id_lt]
  refine Bool.eq_iff_iff.2 ?_
  simp only [BitVec.ofNat_eq_ofNat, BitVec.getLsbD_zero, Bool.false_or, List.any_eq_true, decide_eq_true_eq]
  exact ⟨fun ⟨y, hy, h⟩ => Signal.id_injective h ▸ hy, fun h => ⟨x, h, rfl⟩⟩

theorem getLsbD_levelMask (x y : Signal) (v : Bool) : (levelMask x v).getLsbD y.id = (v && decide (y = x)) := by
  cases v <;> simp [levelMask, getLsbD_maskOf]

/-- The port bit of signal x is among the port bits of a mask exactly when the mask names x. -/
theorem getLsbD_portBits {sig : Signal → Fin 8} (hs : Function.Injective sig) (m : Byte) (x : Signal) :
    (portBits sig m).getLsbD (sig x) = m.getLsbD x.id := by
  rw [portBits, getLsbD_foldl_bit (fun x => (sig x).val) fun x => (sig x).isLt]
  refine Bool.eq_iff_iff.2 ?_
  simp only [BitVec.ofNat_eq_ofNat, BitVec.getLsbD_zero, Bool.false_or, List.any_eq_true, mem_namedSignals, decide_eq_true_eq]
  exact ⟨fun ⟨y, hy, h⟩ => hs (Fin.ext h) ▸ hy, fun h => ⟨x, h, rfl⟩⟩

/-- R125: a named signal gets its level from V, every other keeps its own. -/
theorem getLsbD_mergeLevels {sig : Signal → Fin 8} (hs : Function.Injective sig) (m v c : Byte) (x : Signal) :
    (mergeLevels sig m v c).getLsbD (sig x) = if m.getLsbD x.id then v.getLsbD x.id else c.getLsbD (sig x) := by
  have hx := (sig x).isLt
  simp only [mergeLevels, BitVec.getLsbD_or, BitVec.getLsbD_and, BitVec.getLsbD_not, getLsbD_portBits hs, hx]
  cases m.getLsbD x.id <;> simp

/-- R130: only the named signal's bit changes. -/
theorem getLsbD_invertSignal {sig : Signal → Fin 8} (hs : Function.Injective sig) (x y : Signal) (c : Byte) :
    (invertSignal sig x c).getLsbD (sig y) = (c.getLsbD (sig y) ^^ decide (x = y)) := by
  have hxy : decide ((sig y).val = (sig x).val) = decide (x = y) := by
    simp [Fin.val_inj, hs.eq_iff, eq_comm]
  rw [invertSignal, BitVec.getLsbD_xor, getLsbD_bit _ _ (sig x).isLt, hxy]

/-- Inverting twice restores the control word (R247). -/
@[simp] theorem invertSignal_twice (sig : Signal → Fin 8) (x : Signal) (c : Byte) :
    invertSignal sig x (invertSignal sig x c) = c := by
  simp [invertSignal]

/-- A one-signal mask names that signal. -/
@[simp] theorem namedSignals_maskOf_one (x : Signal) : namedSignals (maskOf [x]) = [x] := by
  cases x <;> decide

/-- STROBE's check by counting (R130) is the model's by listing. -/
theorem popcount_eq_length (m : Byte) : popcount m = (namedSignals m).length := by
  simp only [popcount, namedSignals, List.countP_eq_length_filter]
  simp only [Signal.all, List.range, List.range.loop, List.filter, Signal.id]
  repeat' (first | rfl | split)

/-- The register-select levels of a SELECT (R151). -/
theorem getLsbD_selectLevels (l : SelectLevels) (x : Signal) :
    (selectLevels l).getLsbD x.id =
      match x with
      | .rs0 => l.rs0 | .rs1 => l.rs1 | .rnw => l.rnw | .ss => l.ss | _ => false := by
  simp only [selectLevels, BitVec.getLsbD_or, getLsbD_levelMask]
  cases x <;> simp

end Sys2Proof.Machine
end

