-- ==== Sys2Proof/Laws/State.lean ====
section
/-! SUPPORT. One lemma per field per update of State: what each update sets, and that it leaves the rest
alone. The last section says the same of the values computed from State: registers, pins and draws. -/

namespace Sys2Proof.Machine

variable (s : State)

/-! ### `store` -/

@[simp] theorem State.store_board (r : Reg) (v : Byte) : (s.store r v).board = s.board := rfl
@[simp] theorem State.store_mem (r : Reg) (v : Byte) : (s.store r v).mem = Memory.write s.mem (s.board.addr r).key v := rfl
@[simp] theorem State.store_draws (r : Reg) (v : Byte) : (s.store r v).draws = s.draws := rfl
@[simp] theorem State.store_drawn (r : Reg) (v : Byte) : (s.store r v).drawn = s.drawn := rfl
@[simp] theorem State.store_shadow (r : Reg) (v : Byte) : (s.store r v).shadow = s.shadow := rfl
@[simp] theorem State.store_shadowValid (r : Reg) (v : Byte) : (s.store r v).shadowValid = s.shadowValid := rfl
@[simp] theorem State.store_dataDir (r : Reg) (v : Byte) : (s.store r v).dataDir = s.dataDir := rfl
@[simp] theorem State.store_linkReady (r : Reg) (v : Byte) : (s.store r v).linkReady = s.linkReady := rfl
@[simp] theorem State.store_linkSpeed (r : Reg) (v : Byte) : (s.store r v).linkSpeed = s.linkSpeed := rfl
@[simp] theorem State.store_busy (r : Reg) (v : Byte) : (s.store r v).busy = s.busy := rfl
@[simp] theorem State.store_seqPos (r : Reg) (v : Byte) : (s.store r v).seqPos = s.seqPos := rfl
@[simp] theorem State.store_trace (r : Reg) (v : Byte) : (s.store r v).trace = s.trace := rfl
@[simp] theorem State.store_resp (r : Reg) (v : Byte) : (s.store r v).resp = s.resp := rfl
@[simp] theorem State.store_responses (r : Reg) (v : Byte) : (s.store r v).responses = s.responses := rfl
@[simp] theorem State.store_pending (r : Reg) (v : Byte) : (s.store r v).pending = s.pending := rfl
@[simp] theorem State.store_contention (r : Reg) (v : Byte) : (s.store r v).contention = s.contention := rfl

/-! ### `noteContention` -/

@[simp] theorem State.noteContention_board : (s.noteContention).board = s.board := rfl
@[simp] theorem State.noteContention_mem : (s.noteContention).mem = s.mem := rfl
@[simp] theorem State.noteContention_draws : (s.noteContention).draws = s.draws := rfl
@[simp] theorem State.noteContention_drawn : (s.noteContention).drawn = s.drawn := rfl
@[simp] theorem State.noteContention_shadow : (s.noteContention).shadow = s.shadow := rfl
@[simp] theorem State.noteContention_shadowValid : (s.noteContention).shadowValid = s.shadowValid := rfl
@[simp] theorem State.noteContention_dataDir : (s.noteContention).dataDir = s.dataDir := rfl
@[simp] theorem State.noteContention_linkReady : (s.noteContention).linkReady = s.linkReady := rfl
@[simp] theorem State.noteContention_linkSpeed : (s.noteContention).linkSpeed = s.linkSpeed := rfl
@[simp] theorem State.noteContention_busy : (s.noteContention).busy = s.busy := rfl
@[simp] theorem State.noteContention_seqPos : (s.noteContention).seqPos = s.seqPos := rfl
@[simp] theorem State.noteContention_trace : (s.noteContention).trace = s.trace := rfl
@[simp] theorem State.noteContention_resp : (s.noteContention).resp = s.resp := rfl
@[simp] theorem State.noteContention_responses : (s.noteContention).responses = s.responses := rfl
@[simp] theorem State.noteContention_pending : (s.noteContention).pending = s.pending := rfl
@[simp] theorem State.noteContention_contention : (s.noteContention).contention = (s.contention || s.contending) := rfl

/-! ### `advance` -/

@[simp] theorem State.advance_board : (s.advance).board = s.board := rfl
@[simp] theorem State.advance_mem : (s.advance).mem = s.mem := rfl
@[simp] theorem State.advance_draws : (s.advance).draws = s.draws.tail := rfl
@[simp] theorem State.advance_drawn : (s.advance).drawn = s.drawn + 1 := rfl
@[simp] theorem State.advance_shadow : (s.advance).shadow = s.shadow := rfl
@[simp] theorem State.advance_shadowValid : (s.advance).shadowValid = s.shadowValid := rfl
@[simp] theorem State.advance_dataDir : (s.advance).dataDir = s.dataDir := rfl
@[simp] theorem State.advance_linkReady : (s.advance).linkReady = s.linkReady := rfl
@[simp] theorem State.advance_linkSpeed : (s.advance).linkSpeed = s.linkSpeed := rfl
@[simp] theorem State.advance_busy : (s.advance).busy = s.busy := rfl
@[simp] theorem State.advance_seqPos : (s.advance).seqPos = s.seqPos + 1 := rfl
@[simp] theorem State.advance_trace : (s.advance).trace = s.trace := rfl
@[simp] theorem State.advance_resp : (s.advance).resp = s.resp := rfl
@[simp] theorem State.advance_responses : (s.advance).responses = s.responses := rfl
@[simp] theorem State.advance_pending : (s.advance).pending = s.pending := rfl
@[simp] theorem State.advance_contention : (s.advance).contention = s.contention := rfl

/-! ### `record` -/

@[simp] theorem State.record_board (e : Event) : (s.record e).board = s.board := rfl
@[simp] theorem State.record_mem (e : Event) : (s.record e).mem = s.mem := rfl
@[simp] theorem State.record_draws (e : Event) : (s.record e).draws = s.draws := rfl
@[simp] theorem State.record_drawn (e : Event) : (s.record e).drawn = s.drawn := rfl
@[simp] theorem State.record_shadow (e : Event) : (s.record e).shadow = s.shadow := rfl
@[simp] theorem State.record_shadowValid (e : Event) : (s.record e).shadowValid = s.shadowValid := rfl
@[simp] theorem State.record_dataDir (e : Event) : (s.record e).dataDir = s.dataDir := rfl
@[simp] theorem State.record_linkReady (e : Event) : (s.record e).linkReady = s.linkReady := rfl
@[simp] theorem State.record_linkSpeed (e : Event) : (s.record e).linkSpeed = s.linkSpeed := rfl
@[simp] theorem State.record_busy (e : Event) : (s.record e).busy = s.busy := rfl
@[simp] theorem State.record_seqPos (e : Event) : (s.record e).seqPos = s.seqPos := rfl
@[simp] theorem State.record_trace (e : Event) : (s.record e).trace = s.trace ++ [e] := rfl
@[simp] theorem State.record_resp (e : Event) : (s.record e).resp = s.resp := rfl
@[simp] theorem State.record_responses (e : Event) : (s.record e).responses = s.responses := rfl
@[simp] theorem State.record_pending (e : Event) : (s.record e).pending = s.pending := rfl
@[simp] theorem State.record_contention (e : Event) : (s.record e).contention = s.contention := rfl

/-! ### `commitShadow` -/

@[simp] theorem State.commitShadow_board (n : Byte) : (s.commitShadow n).board = s.board := rfl
@[simp] theorem State.commitShadow_mem (n : Byte) : (s.commitShadow n).mem = s.mem := rfl
@[simp] theorem State.commitShadow_draws (n : Byte) : (s.commitShadow n).draws = s.draws := rfl
@[simp] theorem State.commitShadow_drawn (n : Byte) : (s.commitShadow n).drawn = s.drawn := rfl
@[simp] theorem State.commitShadow_shadow (n : Byte) : (s.commitShadow n).shadow = n := rfl
@[simp] theorem State.commitShadow_shadowValid (n : Byte) : (s.commitShadow n).shadowValid = true := rfl
@[simp] theorem State.commitShadow_dataDir (n : Byte) : (s.commitShadow n).dataDir = s.dataDir := rfl
@[simp] theorem State.commitShadow_linkReady (n : Byte) : (s.commitShadow n).linkReady = s.linkReady := rfl
@[simp] theorem State.commitShadow_linkSpeed (n : Byte) : (s.commitShadow n).linkSpeed = s.linkSpeed := rfl
@[simp] theorem State.commitShadow_busy (n : Byte) : (s.commitShadow n).busy = s.busy := rfl
@[simp] theorem State.commitShadow_seqPos (n : Byte) : (s.commitShadow n).seqPos = s.seqPos := rfl
@[simp] theorem State.commitShadow_trace (n : Byte) : (s.commitShadow n).trace = s.trace := rfl
@[simp] theorem State.commitShadow_resp (n : Byte) : (s.commitShadow n).resp = s.resp := rfl
@[simp] theorem State.commitShadow_responses (n : Byte) : (s.commitShadow n).responses = s.responses := rfl
@[simp] theorem State.commitShadow_pending (n : Byte) : (s.commitShadow n).pending = s.pending := rfl
@[simp] theorem State.commitShadow_contention (n : Byte) : (s.commitShadow n).contention = s.contention := rfl

/-! ### `setDataDir` -/

@[simp] theorem State.setDataDir_board (d : DataDir) : (s.setDataDir d).board = s.board := rfl
@[simp] theorem State.setDataDir_mem (d : DataDir) : (s.setDataDir d).mem = s.mem := rfl
@[simp] theorem State.setDataDir_draws (d : DataDir) : (s.setDataDir d).draws = s.draws := rfl
@[simp] theorem State.setDataDir_drawn (d : DataDir) : (s.setDataDir d).drawn = s.drawn := rfl
@[simp] theorem State.setDataDir_shadow (d : DataDir) : (s.setDataDir d).shadow = s.shadow := rfl
@[simp] theorem State.setDataDir_shadowValid (d : DataDir) : (s.setDataDir d).shadowValid = s.shadowValid := rfl
@[simp] theorem State.setDataDir_dataDir (d : DataDir) : (s.setDataDir d).dataDir = d := rfl
@[simp] theorem State.setDataDir_linkReady (d : DataDir) : (s.setDataDir d).linkReady = s.linkReady := rfl
@[simp] theorem State.setDataDir_linkSpeed (d : DataDir) : (s.setDataDir d).linkSpeed = s.linkSpeed := rfl
@[simp] theorem State.setDataDir_busy (d : DataDir) : (s.setDataDir d).busy = s.busy := rfl
@[simp] theorem State.setDataDir_seqPos (d : DataDir) : (s.setDataDir d).seqPos = s.seqPos := rfl
@[simp] theorem State.setDataDir_trace (d : DataDir) : (s.setDataDir d).trace = s.trace := rfl
@[simp] theorem State.setDataDir_resp (d : DataDir) : (s.setDataDir d).resp = s.resp := rfl
@[simp] theorem State.setDataDir_responses (d : DataDir) : (s.setDataDir d).responses = s.responses := rfl
@[simp] theorem State.setDataDir_pending (d : DataDir) : (s.setDataDir d).pending = s.pending := rfl
@[simp] theorem State.setDataDir_contention (d : DataDir) : (s.setDataDir d).contention = s.contention := rfl

/-! ### `setLinkReady` -/

@[simp] theorem State.setLinkReady_board (v : Bool) : (s.setLinkReady v).board = s.board := rfl
@[simp] theorem State.setLinkReady_mem (v : Bool) : (s.setLinkReady v).mem = s.mem := rfl
@[simp] theorem State.setLinkReady_draws (v : Bool) : (s.setLinkReady v).draws = s.draws := rfl
@[simp] theorem State.setLinkReady_drawn (v : Bool) : (s.setLinkReady v).drawn = s.drawn := rfl
@[simp] theorem State.setLinkReady_shadow (v : Bool) : (s.setLinkReady v).shadow = s.shadow := rfl
@[simp] theorem State.setLinkReady_shadowValid (v : Bool) : (s.setLinkReady v).shadowValid = s.shadowValid := rfl
@[simp] theorem State.setLinkReady_dataDir (v : Bool) : (s.setLinkReady v).dataDir = s.dataDir := rfl
@[simp] theorem State.setLinkReady_linkReady (v : Bool) : (s.setLinkReady v).linkReady = v := rfl
@[simp] theorem State.setLinkReady_linkSpeed (v : Bool) : (s.setLinkReady v).linkSpeed = s.linkSpeed := rfl
@[simp] theorem State.setLinkReady_busy (v : Bool) : (s.setLinkReady v).busy = s.busy := rfl
@[simp] theorem State.setLinkReady_seqPos (v : Bool) : (s.setLinkReady v).seqPos = s.seqPos := rfl
@[simp] theorem State.setLinkReady_trace (v : Bool) : (s.setLinkReady v).trace = s.trace := rfl
@[simp] theorem State.setLinkReady_resp (v : Bool) : (s.setLinkReady v).resp = s.resp := rfl
@[simp] theorem State.setLinkReady_responses (v : Bool) : (s.setLinkReady v).responses = s.responses := rfl
@[simp] theorem State.setLinkReady_pending (v : Bool) : (s.setLinkReady v).pending = s.pending := rfl
@[simp] theorem State.setLinkReady_contention (v : Bool) : (s.setLinkReady v).contention = s.contention := rfl

/-! ### `setLinkSpeed` -/

@[simp] theorem State.setLinkSpeed_board (v : LinkSpeed) : (s.setLinkSpeed v).board = s.board := rfl
@[simp] theorem State.setLinkSpeed_mem (v : LinkSpeed) : (s.setLinkSpeed v).mem = s.mem := rfl
@[simp] theorem State.setLinkSpeed_draws (v : LinkSpeed) : (s.setLinkSpeed v).draws = s.draws := rfl
@[simp] theorem State.setLinkSpeed_drawn (v : LinkSpeed) : (s.setLinkSpeed v).drawn = s.drawn := rfl
@[simp] theorem State.setLinkSpeed_shadow (v : LinkSpeed) : (s.setLinkSpeed v).shadow = s.shadow := rfl
@[simp] theorem State.setLinkSpeed_shadowValid (v : LinkSpeed) : (s.setLinkSpeed v).shadowValid = s.shadowValid := rfl
@[simp] theorem State.setLinkSpeed_dataDir (v : LinkSpeed) : (s.setLinkSpeed v).dataDir = s.dataDir := rfl
@[simp] theorem State.setLinkSpeed_linkReady (v : LinkSpeed) : (s.setLinkSpeed v).linkReady = s.linkReady := rfl
@[simp] theorem State.setLinkSpeed_linkSpeed (v : LinkSpeed) : (s.setLinkSpeed v).linkSpeed = some v := rfl
@[simp] theorem State.setLinkSpeed_busy (v : LinkSpeed) : (s.setLinkSpeed v).busy = s.busy := rfl
@[simp] theorem State.setLinkSpeed_seqPos (v : LinkSpeed) : (s.setLinkSpeed v).seqPos = s.seqPos := rfl
@[simp] theorem State.setLinkSpeed_trace (v : LinkSpeed) : (s.setLinkSpeed v).trace = s.trace := rfl
@[simp] theorem State.setLinkSpeed_resp (v : LinkSpeed) : (s.setLinkSpeed v).resp = s.resp := rfl
@[simp] theorem State.setLinkSpeed_responses (v : LinkSpeed) : (s.setLinkSpeed v).responses = s.responses := rfl
@[simp] theorem State.setLinkSpeed_pending (v : LinkSpeed) : (s.setLinkSpeed v).pending = s.pending := rfl
@[simp] theorem State.setLinkSpeed_contention (v : LinkSpeed) : (s.setLinkSpeed v).contention = s.contention := rfl

/-! ### `waited` -/

@[simp] theorem State.waited_board : (s.waited).board = s.board := rfl
@[simp] theorem State.waited_mem : (s.waited).mem = s.mem := rfl
@[simp] theorem State.waited_draws : (s.waited).draws = s.draws := rfl
@[simp] theorem State.waited_drawn : (s.waited).drawn = s.drawn := rfl
@[simp] theorem State.waited_shadow : (s.waited).shadow = s.shadow := rfl
@[simp] theorem State.waited_shadowValid : (s.waited).shadowValid = s.shadowValid := rfl
@[simp] theorem State.waited_dataDir : (s.waited).dataDir = s.dataDir := rfl
@[simp] theorem State.waited_linkReady : (s.waited).linkReady = s.linkReady := rfl
@[simp] theorem State.waited_linkSpeed : (s.waited).linkSpeed = s.linkSpeed := rfl
@[simp] theorem State.waited_busy : (s.waited).busy = s.busy := rfl
@[simp] theorem State.waited_seqPos : (s.waited).seqPos = s.seqPos + 1 := rfl
@[simp] theorem State.waited_trace : (s.waited).trace = s.trace ++ [.wait s.board.raw.strobeHold] := rfl
@[simp] theorem State.waited_resp : (s.waited).resp = s.resp := rfl
@[simp] theorem State.waited_responses : (s.waited).responses = s.responses := rfl
@[simp] theorem State.waited_pending : (s.waited).pending = s.pending := rfl
@[simp] theorem State.waited_contention : (s.waited).contention = s.contention := rfl

/-! ### `start` -/

@[simp] theorem State.start_board : (s.start).board = s.board := rfl
@[simp] theorem State.start_mem : (s.start).mem = s.mem := rfl
@[simp] theorem State.start_draws : (s.start).draws = s.draws := rfl
@[simp] theorem State.start_drawn : (s.start).drawn = s.drawn := rfl
@[simp] theorem State.start_shadow : (s.start).shadow = s.shadow := rfl
@[simp] theorem State.start_shadowValid : (s.start).shadowValid = s.shadowValid := rfl
@[simp] theorem State.start_dataDir : (s.start).dataDir = s.dataDir := rfl
@[simp] theorem State.start_linkReady : (s.start).linkReady = s.linkReady := rfl
@[simp] theorem State.start_linkSpeed : (s.start).linkSpeed = s.linkSpeed := rfl
@[simp] theorem State.start_busy : (s.start).busy = true := rfl
@[simp] theorem State.start_seqPos : (s.start).seqPos = 0 := rfl
@[simp] theorem State.start_trace : (s.start).trace = s.trace := rfl
@[simp] theorem State.start_resp : (s.start).resp = s.resp := rfl
@[simp] theorem State.start_responses : (s.start).responses = s.responses := rfl
@[simp] theorem State.start_pending : (s.start).pending = s.pending := rfl
@[simp] theorem State.start_contention : (s.start).contention = s.contention := rfl

/-! ### `finish` -/

@[simp] theorem State.finish_board (r : Response) : (s.finish r).board = s.board := rfl
@[simp] theorem State.finish_mem (r : Response) : (s.finish r).mem = s.mem := rfl
@[simp] theorem State.finish_draws (r : Response) : (s.finish r).draws = s.draws := rfl
@[simp] theorem State.finish_drawn (r : Response) : (s.finish r).drawn = s.drawn := rfl
@[simp] theorem State.finish_shadow (r : Response) : (s.finish r).shadow = s.shadow := rfl
@[simp] theorem State.finish_shadowValid (r : Response) : (s.finish r).shadowValid = s.shadowValid := rfl
@[simp] theorem State.finish_dataDir (r : Response) : (s.finish r).dataDir = s.dataDir := rfl
@[simp] theorem State.finish_linkReady (r : Response) : (s.finish r).linkReady = s.linkReady := rfl
@[simp] theorem State.finish_linkSpeed (r : Response) : (s.finish r).linkSpeed = s.linkSpeed := rfl
@[simp] theorem State.finish_busy (r : Response) : (s.finish r).busy = false := rfl
@[simp] theorem State.finish_seqPos (r : Response) : (s.finish r).seqPos = 0 := rfl
@[simp] theorem State.finish_trace (r : Response) : (s.finish r).trace = s.trace := rfl
@[simp] theorem State.finish_resp (r : Response) : (s.finish r).resp = some r := rfl
@[simp] theorem State.finish_responses (r : Response) : (s.finish r).responses = s.responses ++ [r] := rfl
@[simp] theorem State.finish_pending (r : Response) : (s.finish r).pending = s.pending := rfl
@[simp] theorem State.finish_contention (r : Response) : (s.finish r).contention = s.contention := rfl

/-! ### `takeCommand` -/

@[simp] theorem State.takeCommand_board (rest : List CmdWord) : (s.takeCommand rest).board = s.board := rfl
@[simp] theorem State.takeCommand_mem (rest : List CmdWord) : (s.takeCommand rest).mem = s.mem := rfl
@[simp] theorem State.takeCommand_draws (rest : List CmdWord) : (s.takeCommand rest).draws = s.draws := rfl
@[simp] theorem State.takeCommand_drawn (rest : List CmdWord) : (s.takeCommand rest).drawn = s.drawn := rfl
@[simp] theorem State.takeCommand_shadow (rest : List CmdWord) : (s.takeCommand rest).shadow = s.shadow := rfl
@[simp] theorem State.takeCommand_shadowValid (rest : List CmdWord) : (s.takeCommand rest).shadowValid = s.shadowValid := rfl
@[simp] theorem State.takeCommand_dataDir (rest : List CmdWord) : (s.takeCommand rest).dataDir = s.dataDir := rfl
@[simp] theorem State.takeCommand_linkReady (rest : List CmdWord) : (s.takeCommand rest).linkReady = s.linkReady := rfl
@[simp] theorem State.takeCommand_linkSpeed (rest : List CmdWord) : (s.takeCommand rest).linkSpeed = s.linkSpeed := rfl
@[simp] theorem State.takeCommand_busy (rest : List CmdWord) : (s.takeCommand rest).busy = s.busy := rfl
@[simp] theorem State.takeCommand_seqPos (rest : List CmdWord) : (s.takeCommand rest).seqPos = s.seqPos := rfl
@[simp] theorem State.takeCommand_trace (rest : List CmdWord) : (s.takeCommand rest).trace = s.trace := rfl
@[simp] theorem State.takeCommand_resp (rest : List CmdWord) : (s.takeCommand rest).resp = s.resp := rfl
@[simp] theorem State.takeCommand_responses (rest : List CmdWord) : (s.takeCommand rest).responses = s.responses := rfl
@[simp] theorem State.takeCommand_pending (rest : List CmdWord) : (s.takeCommand rest).pending = rest := rfl
@[simp] theorem State.takeCommand_contention (rest : List CmdWord) : (s.takeCommand rest).contention = s.contention := rfl

/-! ### `withFetchWord` -/

@[simp] theorem State.withFetchWord_board (n w : Nat) : (s.withFetchWord n w).board = s.board := rfl
@[simp] theorem State.withFetchWord_mem (n w : Nat) : (s.withFetchWord n w).mem = s.mem := rfl
@[simp] theorem State.withFetchWord_draws (n w : Nat) : (s.withFetchWord n w).draws = s.draws := rfl
@[simp] theorem State.withFetchWord_drawn (n w : Nat) : (s.withFetchWord n w).drawn = s.drawn := rfl
@[simp] theorem State.withFetchWord_shadow (n w : Nat) : (s.withFetchWord n w).shadow = s.shadow := rfl
@[simp] theorem State.withFetchWord_shadowValid (n w : Nat) : (s.withFetchWord n w).shadowValid = s.shadowValid := rfl
@[simp] theorem State.withFetchWord_dataDir (n w : Nat) : (s.withFetchWord n w).dataDir = s.dataDir := rfl
@[simp] theorem State.withFetchWord_linkReady (n w : Nat) : (s.withFetchWord n w).linkReady = s.linkReady := rfl
@[simp] theorem State.withFetchWord_linkSpeed (n w : Nat) : (s.withFetchWord n w).linkSpeed = s.linkSpeed := rfl
@[simp] theorem State.withFetchWord_busy (n w : Nat) : (s.withFetchWord n w).busy = false := rfl
@[simp] theorem State.withFetchWord_seqPos (n w : Nat) : (s.withFetchWord n w).seqPos = s.seqPos := rfl
@[simp] theorem State.withFetchWord_trace (n w : Nat) : (s.withFetchWord n w).trace = s.trace := rfl
@[simp] theorem State.withFetchWord_resp (n w : Nat) : (s.withFetchWord n w).resp = s.resp := rfl
@[simp] theorem State.withFetchWord_responses (n w : Nat) : (s.withFetchWord n w).responses = s.responses := rfl
@[simp] theorem State.withFetchWord_pending (n w : Nat) : (s.withFetchWord n w).pending = tableWord n w :: s.pending := rfl
@[simp] theorem State.withFetchWord_contention (n w : Nat) : (s.withFetchWord n w).contention = s.contention := rfl

/-! ### `afterFailedWrite` -/

@[simp] theorem State.afterFailedWrite_board (r : Reg) : (s.afterFailedWrite r).board = s.board := by cases r <;> rfl
@[simp] theorem State.afterFailedWrite_mem (r : Reg) : (s.afterFailedWrite r).mem = s.mem := by cases r <;> rfl
@[simp] theorem State.afterFailedWrite_draws (r : Reg) : (s.afterFailedWrite r).draws = s.draws := by cases r <;> rfl
@[simp] theorem State.afterFailedWrite_drawn (r : Reg) : (s.afterFailedWrite r).drawn = s.drawn := by cases r <;> rfl
@[simp] theorem State.afterFailedWrite_shadow (r : Reg) : (s.afterFailedWrite r).shadow = s.shadow := by cases r <;> rfl
@[simp] theorem State.afterFailedWrite_linkReady (r : Reg) : (s.afterFailedWrite r).linkReady = s.linkReady := by cases r <;> rfl
@[simp] theorem State.afterFailedWrite_linkSpeed (r : Reg) : (s.afterFailedWrite r).linkSpeed = s.linkSpeed := by cases r <;> rfl
@[simp] theorem State.afterFailedWrite_busy (r : Reg) : (s.afterFailedWrite r).busy = s.busy := by cases r <;> rfl
@[simp] theorem State.afterFailedWrite_seqPos (r : Reg) : (s.afterFailedWrite r).seqPos = s.seqPos := by cases r <;> rfl
@[simp] theorem State.afterFailedWrite_trace (r : Reg) : (s.afterFailedWrite r).trace = s.trace := by cases r <;> rfl
@[simp] theorem State.afterFailedWrite_resp (r : Reg) : (s.afterFailedWrite r).resp = s.resp := by cases r <;> rfl
@[simp] theorem State.afterFailedWrite_responses (r : Reg) : (s.afterFailedWrite r).responses = s.responses := by cases r <;> rfl
@[simp] theorem State.afterFailedWrite_pending (r : Reg) : (s.afterFailedWrite r).pending = s.pending := by cases r <;> rfl
@[simp] theorem State.afterFailedWrite_contention (r : Reg) : (s.afterFailedWrite r).contention = s.contention := by cases r <;> rfl
@[simp] theorem State.afterFailedWrite_shadowValid (r : Reg) :
    (s.afterFailedWrite r).shadowValid = (s.shadowValid && r != .olatCtrl) := by
  cases r <;> simp [State.afterFailedWrite]
@[simp] theorem State.afterFailedWrite_dataDir (r : Reg) :
    (s.afterFailedWrite r).dataDir = if r = .dirData then .unknown else s.dataDir := by
  cases r <;> rfl

/-! ### Registers, pins and draws -/

@[simp] theorem State.store_drawAt (r : Reg) (v : Byte) (k : Nat) : (s.store r v).drawAt k = s.drawAt k := rfl
@[simp] theorem State.noteContention_expReg (q : Reg) : (s.noteContention).expReg q = s.expReg q := rfl
@[simp] theorem State.noteContention_latch : (s.noteContention).latch = s.latch := rfl
@[simp] theorem State.noteContention_level (x : Signal) : (s.noteContention).level x = s.level x := rfl
@[simp] theorem State.noteContention_drawAt (k : Nat) : (s.noteContention).drawAt k = s.drawAt k := rfl
@[simp] theorem State.advance_expReg (q : Reg) : (s.advance).expReg q = s.expReg q := rfl
@[simp] theorem State.advance_latch : (s.advance).latch = s.latch := rfl
@[simp] theorem State.advance_level (x : Signal) : (s.advance).level x = s.level x := rfl
@[simp] theorem State.record_expReg (e : Event) (q : Reg) : (s.record e).expReg q = s.expReg q := rfl
@[simp] theorem State.record_latch (e : Event) : (s.record e).latch = s.latch := rfl
@[simp] theorem State.record_level (e : Event) (x : Signal) : (s.record e).level x = s.level x := rfl
@[simp] theorem State.record_drawAt (e : Event) (k : Nat) : (s.record e).drawAt k = s.drawAt k := rfl
@[simp] theorem State.commitShadow_expReg (n : Byte) (q : Reg) : (s.commitShadow n).expReg q = s.expReg q := rfl
@[simp] theorem State.commitShadow_latch (n : Byte) : (s.commitShadow n).latch = s.latch := rfl
@[simp] theorem State.commitShadow_level (n : Byte) (x : Signal) : (s.commitShadow n).level x = s.level x := rfl
@[simp] theorem State.commitShadow_drawAt (n : Byte) (k : Nat) : (s.commitShadow n).drawAt k = s.drawAt k := rfl
@[simp] theorem State.setDataDir_expReg (d : DataDir) (q : Reg) : (s.setDataDir d).expReg q = s.expReg q := rfl
@[simp] theorem State.setDataDir_latch (d : DataDir) : (s.setDataDir d).latch = s.latch := rfl
@[simp] theorem State.setDataDir_level (d : DataDir) (x : Signal) : (s.setDataDir d).level x = s.level x := rfl
@[simp] theorem State.setDataDir_drawAt (d : DataDir) (k : Nat) : (s.setDataDir d).drawAt k = s.drawAt k := rfl
@[simp] theorem State.setLinkReady_expReg (v : Bool) (q : Reg) : (s.setLinkReady v).expReg q = s.expReg q := rfl
@[simp] theorem State.setLinkReady_latch (v : Bool) : (s.setLinkReady v).latch = s.latch := rfl
@[simp] theorem State.setLinkReady_level (v : Bool) (x : Signal) : (s.setLinkReady v).level x = s.level x := rfl
@[simp] theorem State.setLinkReady_drawAt (v : Bool) (k : Nat) : (s.setLinkReady v).drawAt k = s.drawAt k := rfl
@[simp] theorem State.setLinkSpeed_expReg (v : LinkSpeed) (q : Reg) : (s.setLinkSpeed v).expReg q = s.expReg q := rfl
@[simp] theorem State.setLinkSpeed_latch (v : LinkSpeed) : (s.setLinkSpeed v).latch = s.latch := rfl
@[simp] theorem State.setLinkSpeed_level (v : LinkSpeed) (x : Signal) : (s.setLinkSpeed v).level x = s.level x := rfl
@[simp] theorem State.setLinkSpeed_drawAt (v : LinkSpeed) (k : Nat) : (s.setLinkSpeed v).drawAt k = s.drawAt k := rfl
@[simp] theorem State.waited_expReg (q : Reg) : (s.waited).expReg q = s.expReg q := rfl
@[simp] theorem State.waited_latch : (s.waited).latch = s.latch := rfl
@[simp] theorem State.waited_level (x : Signal) : (s.waited).level x = s.level x := rfl
@[simp] theorem State.waited_drawAt (k : Nat) : (s.waited).drawAt k = s.drawAt k := rfl
@[simp] theorem State.start_expReg (q : Reg) : (s.start).expReg q = s.expReg q := rfl
@[simp] theorem State.start_latch : (s.start).latch = s.latch := rfl
@[simp] theorem State.start_level (x : Signal) : (s.start).level x = s.level x := rfl
@[simp] theorem State.start_drawAt (k : Nat) : (s.start).drawAt k = s.drawAt k := rfl
@[simp] theorem State.finish_expReg (r : Response) (q : Reg) : (s.finish r).expReg q = s.expReg q := rfl
@[simp] theorem State.finish_latch (r : Response) : (s.finish r).latch = s.latch := rfl
@[simp] theorem State.finish_level (r : Response) (x : Signal) : (s.finish r).level x = s.level x := rfl
@[simp] theorem State.finish_drawAt (r : Response) (k : Nat) : (s.finish r).drawAt k = s.drawAt k := rfl
@[simp] theorem State.takeCommand_expReg (rest : List CmdWord) (q : Reg) : (s.takeCommand rest).expReg q = s.expReg q := rfl
@[simp] theorem State.takeCommand_latch (rest : List CmdWord) : (s.takeCommand rest).latch = s.latch := rfl
@[simp] theorem State.takeCommand_level (rest : List CmdWord) (x : Signal) : (s.takeCommand rest).level x = s.level x := rfl
@[simp] theorem State.takeCommand_drawAt (rest : List CmdWord) (k : Nat) : (s.takeCommand rest).drawAt k = s.drawAt k := rfl
@[simp] theorem State.withFetchWord_expReg (n w : Nat) (q : Reg) : (s.withFetchWord n w).expReg q = s.expReg q := rfl
@[simp] theorem State.withFetchWord_latch (n w : Nat) : (s.withFetchWord n w).latch = s.latch := rfl
@[simp] theorem State.withFetchWord_level (n w : Nat) (x : Signal) : (s.withFetchWord n w).level x = s.level x := rfl
@[simp] theorem State.withFetchWord_drawAt (n w : Nat) (k : Nat) : (s.withFetchWord n w).drawAt k = s.drawAt k := rfl
@[simp] theorem State.afterFailedWrite_expReg (r q : Reg) : (s.afterFailedWrite r).expReg q = s.expReg q := by
  cases r <;> rfl
@[simp] theorem State.afterFailedWrite_latch (r : Reg) : (s.afterFailedWrite r).latch = s.latch := by
  cases r <;> rfl
@[simp] theorem State.afterFailedWrite_level (r : Reg) (x : Signal) :
    (s.afterFailedWrite r).level x = s.level x := by
  cases r <;> rfl

/-- Using up one decision of the environment leaves the next one first. -/
@[simp] theorem State.advance_drawAt (k : Nat) : s.advance.drawAt k = s.drawAt (k + 1) := by
  have h : s.drawn + 1 + k = s.drawn + (k + 1) := by omega
  simp [State.drawAt, h]

end Sys2Proof.Machine
end

