-- ==== Sys2Proof/Laws/Ops.lean ====
section
/-! SUPPORT. What each shared operation does: how a sequence runs, the state each operation leaves when it
completes (the `after…` functions, with one lemma per field), when it completes (`quiet`), and a rule that
carries a relation through every sequence (`Meets`). -/

namespace Sys2Proof.Machine

/-! ### Running a sequence -/

@[simp] theorem bind_run {α β : Type} (x : Op α) (f : α → Op β) (s : State) :
    (x >>= f) s = match x s with | .ok a t => f a t | .error e t => .error e t := by
  change EStateM.bind x f s = _
  unfold EStateM.bind
  cases x s <;> rfl

@[simp] theorem pure_run {α : Type} (a : α) (s : State) : (pure a : Op α) s = .ok a s := rfl

@[simp] theorem raise_run {α : Type} (e : Status) (s : State) : (raise e : Op α) s = .error e s := rfl

@[simp] theorem viewState_run {α : Type} (f : State → α) (s : State) : viewState f s = .ok (f s) s := rfl

@[simp] theorem updateState_run (f : State → State) (s : State) : updateState f s = .ok () (f s) := rfl

@[simp] theorem respond_run (c : Status) (d : Byte) (s : State) : respond c d s = .ok ⟨c, d⟩ s := rfl

@[simp] theorem waitHold_run (s : State) : waitHold s = .ok () s.waited := rfl

/-- A sequence completes exactly when its first part does and the rest does after it. -/
theorem bind_eq_ok {α β : Type} {x : Op α} {f : α → Op β} {s t : State} {b : β} :
    (x >>= f) s = .ok b t ↔ ∃ a u, x s = .ok a u ∧ f a u = .ok b t := by
  rw [bind_run]
  cases x s <;> simp

/-- A sequence fails exactly when its first part does, or the rest does after it. -/
theorem bind_eq_error {α β : Type} {x : Op α} {f : α → Op β} {s t : State} {e : Status} :
    (x >>= f) s = .error e t ↔ x s = .error e t ∨ ∃ a u, x s = .ok a u ∧ f a u = .error e t := by
  rw [bind_run]
  cases x s <;> simp

/-! ### Registers after a write, and what a read answers -/

@[simp] theorem State.answer_olatCtrl (s : State) (d : BusDraw) : s.answer d .olatCtrl = s.latch := rfl

@[simp] theorem State.answer_inData (s : State) (d : BusDraw) : s.answer d .inData = d.pins := rfl

@[simp] theorem State.store_expReg_same (s : State) (r : Reg) (v : Byte) : (s.store r v).expReg r = v := by
  simp [State.expReg]

theorem State.store_expReg_other (s : State) {r q : Reg} (v : Byte) (h : q ≠ r) :
    (s.store r v).expReg q = s.expReg q := by
  simp [State.expReg, Memory.read_write_other _ _ (fun hk => h (s.board.key_injective hk))]

@[simp] theorem State.store_latch_same (s : State) (v : Byte) : (s.store .olatCtrl v).latch = v := by
  simp [State.latch]

@[simp] theorem State.store_latch_dirData (s : State) (v : Byte) : (s.store .dirData v).latch = s.latch :=
  s.store_expReg_other v (by decide)

@[simp] theorem State.store_latch_olatData (s : State) (v : Byte) : (s.store .olatData v).latch = s.latch :=
  s.store_expReg_other v (by decide)

/-! ### The states completed operations leave -/

/-- After a completed read of a register. -/
def State.afterRead (s : State) (r : Reg) : State := s.advance.record (s.board.rd r (s.answer (s.drawAt 0) r))

/-- After a completed control-latch write of n. -/
def State.afterControl (s : State) (n : Byte) : State :=
  ((s.completedWrite .olatCtrl n).commitShadow n).noteContention

/-- After a completed direction write. -/
def State.afterDirection (s : State) (v : Byte) (d : DataDir) : State :=
  ((s.completedWrite .dirData v).setDataDir d).noteContention

/-- After a completed control-latch read-modify-write that writes n. -/
def State.afterUpdate (s : State) (n : Byte) : State := (s.afterRead .olatCtrl).afterControl n

/-- After a completed `setSignals`. -/
def State.afterSet (s : State) (m v : Byte) : State := s.afterUpdate (mergeLevels s.board.sig m v s.latch)

/-- After a completed `strobeSignal` of one signal. -/
def State.afterStrobe (s : State) (x : Signal) : State :=
  (s.afterUpdate (invertSignal s.board.sig x s.latch)).waited

/-- After a completed `releaseData`. -/
def State.afterRelease (s : State) : State := s.afterDirection s.board.raw.dirAllIn .input

/-- After a completed `writeData`. -/
def State.afterWriteData (s : State) (b : Byte) : State :=
  (s.afterDirection s.board.raw.dirAllOut .output).completedWrite .olatData b

/-- After a completed `readData`. -/
def State.afterReadData (s : State) : State := s.afterRelease.afterRead .inData

/-- After a completed PULSE. -/
def State.afterPulse (s : State) (x : Signal) : State := (s.afterStrobe x).afterStrobe x

/-- After a completed SELECT. -/
def State.afterSelect (s : State) (sel : Selector) : State :=
  s.afterSet selectMask (selectLevels (s.board.raw.regsel.levels sel))

/-- After a completed ACCESS_READ. -/
def State.afterAccessRead (s : State) (sel : Selector) : State :=
  (((s.afterSelect sel).afterSet (maskOf [.csn]) 0).afterReadData).afterSet (maskOf [.csn, .ss]) (maskOf [.csn])

/-- After a completed ACCESS_WRITE. -/
def State.afterAccessWrite (s : State) (sel : Selector) (b : Byte) : State :=
  (((s.afterSelect sel).afterWriteData b).afterPulse .csn).afterRelease

/-- After a completed CONSTRUCT. -/
def State.afterConstruct (s : State) (n : LinkSpeed) : State :=
  ((((((s.setLinkReady false).afterSet (maskOf [.rst]) (maskOf [.rst])).afterSet (maskOf [.csn])
    (maskOf [.csn])).afterSet (maskOf [.lspd]) (levelMask .lspd (speedLevel n))).setLinkSpeed n).afterSet
      (maskOf [.rst]) 0).setLinkReady true

/-! ### What completes, and into which state -/

theorem memRead_ok {s t : State} {r : Reg} {a : Byte} (h : memRead r s = .ok a t) :
    (s.drawAt 0).fails = false ∧ a = s.answer (s.drawAt 0) r ∧ t = s.afterRead r := by
  simp only [memRead] at h
  split at h
  · cases h
  · next hf => cases h; exact ⟨by simpa using hf, rfl, rfl⟩

theorem memRead_quiet {s : State} {r : Reg} (h : (s.drawAt 0).fails = false) :
    memRead r s = .ok (s.answer (s.drawAt 0) r) (s.afterRead r) := by
  simp [memRead, h, State.afterRead, Board.rd]

theorem memRead_fails {s : State} {r : Reg} (h : (s.drawAt 0).fails = true) :
    memRead r s = .error .transportError (s.advance.record (s.board.failed r)) := by
  simp [memRead, h, Board.failed]

theorem memWrite_ok {s t : State} {r : Reg} {v : Byte} {u : Unit} (h : memWrite r v s = .ok u t) :
    (s.drawAt 0).fails = false ∧ t = s.completedWrite r v := by
  simp only [memWrite] at h
  split at h
  · cases h
  · next hf => cases h; exact ⟨by simpa using hf, rfl⟩

theorem memWrite_quiet {s : State} {r : Reg} {v : Byte} (h : (s.drawAt 0).fails = false) :
    memWrite r v s = .ok () (s.completedWrite r v) := by
  simp [memWrite, h]

theorem memWrite_fails {s : State} {r : Reg} {v : Byte} (h : (s.drawAt 0).fails = true) :
    memWrite r v s = .error .transportError (s.failedWrite r v) := by
  simp [memWrite, h]

theorem writeControl_ok {s t : State} {n : Byte} {u : Unit} (h : writeControl n s = .ok u t) :
    (s.drawAt 0).fails = false ∧ t = s.afterControl n := by
  obtain ⟨a, w, hw, ht⟩ := bind_eq_ok.1 h
  obtain ⟨hf, rfl⟩ := memWrite_ok hw
  cases ht
  exact ⟨hf, rfl⟩

theorem writeControl_quiet {s : State} {n : Byte} (h : (s.drawAt 0).fails = false) :
    writeControl n s = .ok () (s.afterControl n) :=
  bind_eq_ok.2 ⟨(), _, memWrite_quiet h, rfl⟩

theorem writeDirection_ok {s t : State} {v : Byte} {d : DataDir} {u : Unit}
    (h : writeDirection v d s = .ok u t) : (s.drawAt 0).fails = false ∧ t = s.afterDirection v d := by
  obtain ⟨a, w, hw, ht⟩ := bind_eq_ok.1 h
  obtain ⟨hf, rfl⟩ := memWrite_ok hw
  cases ht
  exact ⟨hf, rfl⟩

theorem writeDirection_quiet {s : State} {v : Byte} {d : DataDir} (h : (s.drawAt 0).fails = false) :
    writeDirection v d s = .ok () (s.afterDirection v d) :=
  bind_eq_ok.2 ⟨(), _, memWrite_quiet h, rfl⟩

/-! ### The fields of those states -/

section fields
variable (s : State)

@[simp] theorem State.completedWrite_drawAt (r : Reg) (v : Byte) (k : Nat) :
    (s.completedWrite r v).drawAt k = s.drawAt (k + 1) := by simp [State.completedWrite]
@[simp] theorem State.afterRead_drawAt (r : Reg) (k : Nat) : (s.afterRead r).drawAt k = s.drawAt (k + 1) := by
  simp [State.afterRead]
@[simp] theorem State.afterControl_drawAt (n : Byte) (k : Nat) :
    (s.afterControl n).drawAt k = s.drawAt (k + 1) := by simp [State.afterControl]
@[simp] theorem State.afterDirection_drawAt (v : Byte) (d : DataDir) (k : Nat) :
    (s.afterDirection v d).drawAt k = s.drawAt (k + 1) := by simp [State.afterDirection]
@[simp] theorem State.afterUpdate_drawAt (n : Byte) (k : Nat) :
    (s.afterUpdate n).drawAt k = s.drawAt (k + 2) := by simp [State.afterUpdate]
@[simp] theorem State.afterSet_drawAt (m v : Byte) (k : Nat) :
    (s.afterSet m v).drawAt k = s.drawAt (k + 2) := by simp [State.afterSet]
@[simp] theorem State.afterStrobe_drawAt (x : Signal) (k : Nat) :
    (s.afterStrobe x).drawAt k = s.drawAt (k + 2) := by simp [State.afterStrobe]
@[simp] theorem State.afterRelease_drawAt (k : Nat) : s.afterRelease.drawAt k = s.drawAt (k + 1) := by
  simp [State.afterRelease]
@[simp] theorem State.afterWriteData_drawAt (b : Byte) (k : Nat) :
    (s.afterWriteData b).drawAt k = s.drawAt (k + 2) := by simp [State.afterWriteData]
@[simp] theorem State.afterReadData_drawAt (k : Nat) : s.afterReadData.drawAt k = s.drawAt (k + 2) := by
  simp [State.afterReadData]
@[simp] theorem State.afterPulse_drawAt (x : Signal) (k : Nat) :
    (s.afterPulse x).drawAt k = s.drawAt (k + 4) := by simp [State.afterPulse]
@[simp] theorem State.afterSelect_drawAt (sel : Selector) (k : Nat) :
    (s.afterSelect sel).drawAt k = s.drawAt (k + 2) := by simp [State.afterSelect]
@[simp] theorem State.afterAccessRead_drawAt (sel : Selector) (k : Nat) :
    (s.afterAccessRead sel).drawAt k = s.drawAt (k + 8) := by simp [State.afterAccessRead]
@[simp] theorem State.afterAccessWrite_drawAt (sel : Selector) (b : Byte) (k : Nat) :
    (s.afterAccessWrite sel b).drawAt k = s.drawAt (k + 9) := by simp [State.afterAccessWrite]

end fields

/-! ### Sub-sequences: what completes, and that they complete on a quiet bus -/

theorem setSignals_ok {s t : State} {m v : Byte} {u : Unit} (h : setSignals m v s = .ok u t) :
    s.quiet 2 ∧ t = s.afterSet m v := by
  obtain ⟨c, w, hr, h⟩ := bind_eq_ok.1 h
  obtain ⟨h0, rfl, rfl⟩ := memRead_ok hr
  obtain ⟨h1, rfl⟩ := writeControl_ok h
  exact ⟨by rintro (_ | _ | k) hk <;> first | assumption | simpa using h1 | omega, rfl⟩

theorem setSignals_quiet {s : State} {m v : Byte} (h : s.quiet 2) :
    setSignals m v s = .ok () (s.afterSet m v) :=
  bind_eq_ok.2 ⟨_, _, memRead_quiet (h 0 (by decide)),
    writeControl_quiet (s := s.afterRead .olatCtrl) (by simpa using h 1 (by decide))⟩

theorem strobeSignal_one (x : Signal) : strobeSignal (maskOf [x]) = (do
    let c ← memRead .olatCtrl
    let n ← viewState fun s => invertSignal s.board.sig x c
    writeControl n
    waitHold) := by
  unfold strobeSignal
  rw [namedSignals_maskOf_one]

theorem strobeSignal_ok {s t : State} {x : Signal} {u : Unit} (h : strobeSignal (maskOf [x]) s = .ok u t) :
    s.quiet 2 ∧ t = s.afterStrobe x := by
  rw [strobeSignal_one] at h
  obtain ⟨c, w, hr, h⟩ := bind_eq_ok.1 h
  obtain ⟨h0, rfl, rfl⟩ := memRead_ok hr
  obtain ⟨_, w, h, hw⟩ := bind_eq_ok.1 h
  cases h
  obtain ⟨_, w, h, hw⟩ := bind_eq_ok.1 hw
  obtain ⟨h1, rfl⟩ := writeControl_ok h
  cases hw
  exact ⟨by rintro (_ | _ | k) hk <;> first | assumption | simpa using h1 | omega, rfl⟩

theorem strobeSignal_quiet {s : State} {x : Signal} (h : s.quiet 2) :
    strobeSignal (maskOf [x]) s = .ok () (s.afterStrobe x) := by
  rw [strobeSignal_one]
  exact bind_eq_ok.2 ⟨_, _, memRead_quiet (h 0 (by decide)), bind_eq_ok.2 ⟨_, _, rfl, bind_eq_ok.2
    ⟨_, _, writeControl_quiet (s := s.afterRead .olatCtrl) (by simpa using h 1 (by decide)), rfl⟩⟩⟩

theorem releaseData_ok {s t : State} {u : Unit} (h : releaseData s = .ok u t) :
    s.quiet 1 ∧ t = s.afterRelease := by
  obtain ⟨h0, rfl⟩ := writeDirection_ok (v := s.board.raw.dirAllIn) h
  exact ⟨by rintro (_ | k) hk <;> first | assumption | omega, rfl⟩

theorem releaseData_quiet {s : State} (h : s.quiet 1) : releaseData s = .ok () s.afterRelease :=
  writeDirection_quiet (v := s.board.raw.dirAllIn) (h 0 (by decide))

theorem readData_ok {s t : State} {v : Byte} (h : readData s = .ok v t) :
    s.quiet 2 ∧ v = (s.drawAt 1).pins ∧ t = s.afterReadData := by
  obtain ⟨_, w, hr, h⟩ := bind_eq_ok.1 h
  obtain ⟨h0, rfl⟩ := releaseData_ok hr
  obtain ⟨h1, rfl, rfl⟩ := memRead_ok h
  refine ⟨?_, by simp [State.answer], rfl⟩
  rintro (_ | _ | k) hk
  · exact h0 0 (by decide)
  · simpa using h1
  · omega

theorem readData_quiet {s : State} (h : s.quiet 2) : readData s = .ok (s.drawAt 1).pins s.afterReadData := by
  have h1 : (s.afterRelease.drawAt 0).fails = false := by simpa using h 1 (by decide)
  have := memRead_quiet (r := .inData) h1
  simp only [State.answer, State.afterRelease_drawAt] at this
  exact bind_eq_ok.2 ⟨(), _, releaseData_quiet fun k hk => h k (by omega), this⟩

theorem writeData_ok {s t : State} {b : Byte} {u : Unit} (h : writeData b s = .ok u t) :
    s.quiet 2 ∧ t = s.afterWriteData b := by
  obtain ⟨_, _, hr, h⟩ := bind_eq_ok.1 h
  cases hr
  obtain ⟨_, w, hr, h⟩ := bind_eq_ok.1 h
  obtain ⟨h0, rfl⟩ := writeDirection_ok hr
  obtain ⟨h1, rfl⟩ := memWrite_ok h
  exact ⟨by rintro (_ | _ | k) hk <;> first | assumption | simpa using h1 | omega, rfl⟩

theorem writeData_quiet {s : State} {b : Byte} (h : s.quiet 2) : writeData b s = .ok () (s.afterWriteData b) :=
  bind_eq_ok.2 ⟨_, _, rfl, bind_eq_ok.2 ⟨(), _, writeDirection_quiet (h 0 (by decide)),
    memWrite_quiet (by simpa using h 1 (by decide))⟩⟩

/-- Two quiet stretches, one after the other. -/
theorem State.quiet_append {s t : State} {m n : Nat} (ht : ∀ k, t.drawAt k = s.drawAt (k + m)) :
    s.quiet (m + n) ↔ s.quiet m ∧ t.quiet n := by
  refine ⟨fun h => ⟨fun k hk => h k (by omega), fun k hk => by rw [ht]; exact h _ (by omega)⟩, ?_⟩
  rintro ⟨h1, h2⟩ k hk
  by_cases hm : k < m
  · exact h1 k hm
  · have := h2 (k - m) (by omega)
    rwa [ht, Nat.sub_add_cancel (by omega)] at this

theorem pulse_ok {s t : State} {x : Signal} {u : Unit} (h : pulse x s = .ok u t) :
    s.quiet 4 ∧ t = s.afterPulse x := by
  obtain ⟨_, w, h1, h2⟩ := bind_eq_ok.1 h
  obtain ⟨q1, rfl⟩ := strobeSignal_ok h1
  obtain ⟨q2, rfl⟩ := strobeSignal_ok h2
  exact ⟨(State.quiet_append (m := 2) (by simp)).2 ⟨q1, q2⟩, rfl⟩

theorem pulse_quiet {s : State} {x : Signal} (h : s.quiet 4) : pulse x s = .ok () (s.afterPulse x) :=
  have q := (State.quiet_append (s := s) (t := s.afterStrobe x) (m := 2) (n := 2) (by simp)).1 h
  bind_eq_ok.2 ⟨(), _, strobeSignal_quiet q.1, strobeSignal_quiet q.2⟩

theorem selectRegister_ok {s t : State} {sel : Selector} {u : Unit} (h : selectRegister sel s = .ok u t) :
    s.quiet 2 ∧ t = s.afterSelect sel :=
  setSignals_ok (m := selectMask) (v := selectLevels (s.board.raw.regsel.levels sel)) h

theorem selectRegister_quiet {s : State} {sel : Selector} (h : s.quiet 2) :
    selectRegister sel s = .ok () (s.afterSelect sel) :=
  setSignals_quiet (m := selectMask) (v := selectLevels (s.board.raw.regsel.levels sel)) h

theorem accessRead_ok {s t : State} {sel : Selector} {v : Byte} (h : accessRead sel s = .ok v t) :
    s.quiet 8 ∧ v = (s.drawAt 5).pins ∧ t = s.afterAccessRead sel := by
  obtain ⟨_, w, h1, h⟩ := bind_eq_ok.1 h
  obtain ⟨q1, rfl⟩ := selectRegister_ok h1
  obtain ⟨_, w, h2, h⟩ := bind_eq_ok.1 h
  obtain ⟨q2, rfl⟩ := setSignals_ok h2
  obtain ⟨_, w, h3, h⟩ := bind_eq_ok.1 h
  obtain ⟨q3, rfl, rfl⟩ := readData_ok h3
  obtain ⟨_, w, h4, h⟩ := bind_eq_ok.1 h
  obtain ⟨q4, rfl⟩ := setSignals_ok h4
  cases h
  refine ⟨?_, by simp, rfl⟩
  exact (State.quiet_append (m := 2) (n := 6) (t := s.afterSelect sel) (by simp)).2 ⟨q1,
    (State.quiet_append (m := 2) (n := 4) (by simp)).2 ⟨q2,
      (State.quiet_append (m := 2) (n := 2) (by simp)).2 ⟨q3, q4⟩⟩⟩

theorem accessRead_quiet {s : State} {sel : Selector} (h : s.quiet 8) :
    accessRead sel s = .ok (s.drawAt 5).pins (s.afterAccessRead sel) := by
  have q1 := (State.quiet_append (s := s) (t := s.afterSelect sel) (m := 2) (n := 6) (by simp)).1 h
  have q2 := (State.quiet_append (t := (s.afterSelect sel).afterSet (maskOf [.csn]) 0) (m := 2) (n := 4)
    (by simp)).1 q1.2
  have q3 := (State.quiet_append (t := ((s.afterSelect sel).afterSet (maskOf [.csn]) 0).afterReadData)
    (m := 2) (n := 2) (by simp)).1 q2.2
  have h3 := readData_quiet q3.1
  simp only [State.afterSet_drawAt, State.afterSelect_drawAt] at h3
  exact bind_eq_ok.2 ⟨(), _, selectRegister_quiet q1.1, bind_eq_ok.2 ⟨(), _, setSignals_quiet q2.1,
    bind_eq_ok.2 ⟨_, _, h3, bind_eq_ok.2 ⟨(), _, setSignals_quiet q3.2, rfl⟩⟩⟩⟩

theorem accessWrite_ok {s t : State} {sel : Selector} {b : Byte} {u : Unit}
    (h : accessWrite sel b s = .ok u t) : s.quiet 9 ∧ t = s.afterAccessWrite sel b := by
  obtain ⟨_, w, h1, h⟩ := bind_eq_ok.1 h
  obtain ⟨q1, rfl⟩ := selectRegister_ok h1
  obtain ⟨_, w, h2, h⟩ := bind_eq_ok.1 h
  obtain ⟨q2, rfl⟩ := writeData_ok h2
  obtain ⟨_, w, h3, h⟩ := bind_eq_ok.1 h
  obtain ⟨q3, rfl⟩ := pulse_ok h3
  obtain ⟨q4, rfl⟩ := releaseData_ok h
  exact ⟨(State.quiet_append (m := 2) (n := 7) (t := s.afterSelect sel) (by simp)).2 ⟨q1,
    (State.quiet_append (m := 2) (n := 5) (by simp)).2 ⟨q2,
      (State.quiet_append (m := 4) (n := 1) (by simp)).2 ⟨q3, q4⟩⟩⟩, rfl⟩

theorem accessWrite_quiet {s : State} {sel : Selector} {b : Byte} (h : s.quiet 9) :
    accessWrite sel b s = .ok () (s.afterAccessWrite sel b) := by
  have q1 := (State.quiet_append (s := s) (t := s.afterSelect sel) (m := 2) (n := 7) (by simp)).1 h
  have q2 := (State.quiet_append (t := (s.afterSelect sel).afterWriteData b) (m := 2) (n := 5) (by simp)).1 q1.2
  have q3 := (State.quiet_append (t := ((s.afterSelect sel).afterWriteData b).afterPulse .csn)
    (m := 4) (n := 1) (by simp)).1 q2.2
  exact bind_eq_ok.2 ⟨(), _, selectRegister_quiet q1.1, bind_eq_ok.2 ⟨(), _, writeData_quiet q2.1,
    bind_eq_ok.2 ⟨(), _, pulse_quiet q3.1, releaseData_quiet q3.2⟩⟩⟩

theorem construct_ok {s t : State} {n : LinkSpeed} {u : Unit} (h : construct n s = .ok u t) :
    s.quiet 8 ∧ t = s.afterConstruct n := by
  obtain ⟨_, w, h0, h⟩ := bind_eq_ok.1 h
  cases h0
  obtain ⟨_, w, h1, h⟩ := bind_eq_ok.1 h
  obtain ⟨q1, rfl⟩ := setSignals_ok h1
  obtain ⟨_, w, h2, h⟩ := bind_eq_ok.1 h
  obtain ⟨q2, rfl⟩ := setSignals_ok h2
  obtain ⟨_, w, h3, h⟩ := bind_eq_ok.1 h
  obtain ⟨q3, rfl⟩ := setSignals_ok h3
  obtain ⟨_, w, h4, h⟩ := bind_eq_ok.1 h
  cases h4
  obtain ⟨_, w, h5, h⟩ := bind_eq_ok.1 h
  obtain ⟨q5, rfl⟩ := setSignals_ok h5
  cases h
  refine ⟨?_, rfl⟩
  exact (State.quiet_append (s := s) (m := 2) (n := 6) (by simp)).2 ⟨q1,
    (State.quiet_append (m := 2) (n := 4) (by simp)).2 ⟨q2,
      (State.quiet_append (m := 2) (n := 2) (by simp)).2 ⟨q3, q5⟩⟩⟩

theorem construct_quiet {s : State} {n : LinkSpeed} (h : s.quiet 8) :
    construct n s = .ok () (s.afterConstruct n) := by
  have q (k : Nat) (t : State) (ht : ∀ j, t.drawAt j = s.drawAt (j + k)) (hk : k ≤ 6) : t.quiet 2 :=
    fun j hj => by rw [ht]; exact h _ (by omega)
  exact bind_eq_ok.2 ⟨(), _, rfl, bind_eq_ok.2 ⟨(), _, setSignals_quiet (q 0 _ (by simp) (by decide)),
    bind_eq_ok.2 ⟨(), _, setSignals_quiet (q 2 _ (by simp) (by decide)),
      bind_eq_ok.2 ⟨(), _, setSignals_quiet (q 4 _ (by simp) (by decide)),
        bind_eq_ok.2 ⟨(), _, rfl, bind_eq_ok.2 ⟨(), _, setSignals_quiet (q 6 _ (by simp) (by decide)), rfl⟩⟩⟩⟩⟩⟩

/-! ### Carrying a relation through a sequence -/

/-- The operation relates the state before it to the state after it: by P where it completes, by E where it
raises an error. -/
def Meets {α : Type} (P : State → State → Prop) (E : Status → State → State → Prop) (x : Op α) : Prop :=
  ∀ s, match x s with
    | .ok _ t => P s t
    | .error e t => E e s t

/-- A pair of relations that sequencing keeps. -/
structure Sequenced (P : State → State → Prop) (E : Status → State → State → Prop) : Prop where
  refl : ∀ s, P s s
  trans : ∀ s t u, P s t → P t u → P s u
  error : ∀ e s t u, P s t → E e t u → E e s u

theorem Meets.bind {α β : Type} {P : State → State → Prop} {E : Status → State → State → Prop}
    (seq : Sequenced P E) {x : Op α} {f : α → Op β} (hx : Meets P E x) (hf : ∀ a, Meets P E (f a)) :
    Meets P E (x >>= f) := by
  intro s
  have h := hx s
  rw [bind_run]
  cases hxs : x s with
  | error e t => simpa [hxs] using h
  | ok a t =>
    rw [hxs] at h
    have h2 := hf a t
    cases hft : f a t with
    | ok b u => rw [hft] at h2; simpa [hft] using seq.trans _ _ _ h h2
    | error e u => rw [hft] at h2; simpa [hft] using seq.error _ _ _ _ h h2

theorem Meets.pure {α : Type} {P : State → State → Prop} {E : Status → State → State → Prop}
    (seq : Sequenced P E) (a : α) : Meets P E (pure a : Op α) := fun s => seq.refl s

theorem Meets.view {α : Type} {P : State → State → Prop} {E : Status → State → State → Prop}
    (seq : Sequenced P E) (f : State → α) : Meets P E (viewState f) := fun s => seq.refl s

theorem Meets.respond {P : State → State → Prop} {E : Status → State → State → Prop}
    (seq : Sequenced P E) (c : Status) (d : Byte) : Meets P E (respond c d) := fun s => seq.refl s

/-- The control-latch sequences keep a relation that the read and the write keep. -/
theorem Meets.setSignals {P : State → State → Prop} {E : Status → State → State → Prop} (seq : Sequenced P E)
    (hr : Meets P E (memRead .olatCtrl)) (hw : ∀ n, Meets P E (writeControl n)) (m v : Byte) :
    Meets P E (setSignals m v) :=
  .bind seq hr fun _ => .bind seq (.view seq _) fun _ => hw _

theorem Meets.strobeSignal {P : State → State → Prop} {E : Status → State → State → Prop} (seq : Sequenced P E)
    (hr : Meets P E (memRead .olatCtrl)) (hw : ∀ n, Meets P E (writeControl n)) (hwait : Meets P E waitHold)
    (he : ∀ s, E .invalidArgument s s) (m : Byte) : Meets P E (strobeSignal m) := by
  unfold Machine.strobeSignal
  split
  · exact .bind seq hr fun _ => .bind seq (.view seq _) fun _ => .bind seq (hw _) fun _ => hwait
  · exact he

/-- Construction keeps a relation that the control-latch sequence and the Link's two registers keep. -/
theorem Meets.construct {P : State → State → Prop} {E : Status → State → State → Prop} (seq : Sequenced P E)
    (hs : ∀ m v, Meets P E (Machine.setSignals m v)) (hr : ∀ v s, P s (s.setLinkReady v))
    (hl : ∀ v s, P s (s.setLinkSpeed v)) (n : LinkSpeed) : Meets P E (construct n) :=
  .bind seq (fun s => hr _ s) fun _ => .bind seq (hs _ _) fun _ => .bind seq (hs _ _) fun _ =>
    .bind seq (hs _ _) fun _ => .bind seq (fun s => hl _ s) fun _ => .bind seq (hs _ _) fun _ => fun s => hr _ s

/-- The primitives every command is made of keep a relation. -/
structure Primitives (P : State → State → Prop) (E : Status → State → State → Prop) : Prop where
  seq : Sequenced P E
  readControl : Meets P E (memRead .olatCtrl)
  readPins : Meets P E (memRead .inData)
  control : ∀ n, Meets P E (writeControl n)
  release : Meets P E releaseData
  write : ∀ b, Meets P E (writeData b)
  wait : Meets P E waitHold
  construct : ∀ n, Meets P E (construct n)
  notConstructed : ∀ s, s.linkReady = false → E .notConstructed s s
  invalid : ∀ s, E .invalidArgument s s

section
variable {P : State → State → Prop} {E : Status → State → State → Prop} (p : Primitives P E)
include p

theorem Primitives.set (m v : Byte) : Meets P E (setSignals m v) :=
  .setSignals p.seq p.readControl p.control m v

theorem Primitives.strobe (m : Byte) : Meets P E (strobeSignal m) :=
  .strobeSignal p.seq p.readControl p.control p.wait p.invalid m

theorem Primitives.pulse (x : Signal) : Meets P E (pulse x) :=
  .bind p.seq (p.strobe _) fun _ => p.strobe _

theorem Primitives.readData : Meets P E readData := .bind p.seq p.release fun _ => p.readPins

theorem Primitives.select (sel : Selector) : Meets P E (selectRegister sel) :=
  .bind p.seq (.view p.seq _) fun _ => p.set _ _

theorem Primitives.accessRead (sel : Selector) : Meets P E (accessRead sel) :=
  .bind p.seq (p.select _) fun _ => .bind p.seq (p.set _ _) fun _ => .bind p.seq p.readData fun _ =>
    .bind p.seq (p.set _ _) fun _ => .pure p.seq _

theorem Primitives.accessWrite (sel : Selector) (b : Byte) : Meets P E (accessWrite sel b) :=
  .bind p.seq (p.select _) fun _ => .bind p.seq (p.write _) fun _ => .bind p.seq (p.pulse _) fun _ => p.release

theorem Primitives.requireLink : Meets P E requireLink := by
  intro s
  cases h : s.linkReady
  · simpa [Machine.requireLink, h] using p.notConstructed s h
  · simpa [Machine.requireLink, h] using p.seq.refl s

end

end Sys2Proof.Machine
end

