-- ==== Sys2Proof/Laws/Sequences.lean ====
section
/-! SUPPORT. The fields of the state each completed sequence leaves, one lemma per field, and the addresses it
leaves alone. A proof about a command rewrites with these and never unfolds a sequence. -/

namespace Sys2Proof.Machine

variable (s : State)

/-! ### completedWrite -/

@[simp] theorem State.completedWrite_board (r : Reg) (v : Byte) : (s.completedWrite r v).board = s.board := rfl
@[simp] theorem State.completedWrite_pending (r : Reg) (v : Byte) : (s.completedWrite r v).pending = s.pending := rfl
@[simp] theorem State.completedWrite_resp (r : Reg) (v : Byte) : (s.completedWrite r v).resp = s.resp := rfl
@[simp] theorem State.completedWrite_responses (r : Reg) (v : Byte) : (s.completedWrite r v).responses = s.responses := rfl
@[simp] theorem State.completedWrite_busy (r : Reg) (v : Byte) : (s.completedWrite r v).busy = s.busy := rfl
@[simp] theorem State.completedWrite_linkReady (r : Reg) (v : Byte) : (s.completedWrite r v).linkReady = s.linkReady := rfl
@[simp] theorem State.completedWrite_linkSpeed (r : Reg) (v : Byte) : (s.completedWrite r v).linkSpeed = s.linkSpeed := rfl
@[simp] theorem State.completedWrite_shadow (r : Reg) (v : Byte) : (s.completedWrite r v).shadow = s.shadow := rfl
@[simp] theorem State.completedWrite_shadowValid (r : Reg) (v : Byte) : (s.completedWrite r v).shadowValid = s.shadowValid := rfl
@[simp] theorem State.completedWrite_dataDir (r : Reg) (v : Byte) : (s.completedWrite r v).dataDir = s.dataDir := rfl
@[simp] theorem State.completedWrite_trace (r : Reg) (v : Byte) :
    (s.completedWrite r v).trace = s.trace ++ [s.board.wr r v] := rfl
@[simp] theorem State.completedWrite_latch (v : Byte) : (s.completedWrite .olatCtrl v).latch = v :=
  s.store_latch_same v
@[simp] theorem State.completedWrite_latch_dirData (v : Byte) : (s.completedWrite .dirData v).latch = s.latch :=
  s.store_latch_dirData v
@[simp] theorem State.completedWrite_latch_olatData (v : Byte) : (s.completedWrite .olatData v).latch = s.latch :=
  s.store_latch_olatData v
@[simp] theorem State.completedWrite_expReg (r : Reg) (v : Byte) : (s.completedWrite r v).expReg r = v :=
  s.store_expReg_same r v
theorem State.completedWrite_expReg_other {r q : Reg} (v : Byte) (h : q ≠ r) :
    (s.completedWrite r v).expReg q = s.expReg q :=
  s.store_expReg_other v h
/-- A completed write leaves every other address alone. -/
theorem State.completedWrite_elsewhere (r : Reg) (v : Byte) {a : Nat} (h : a ≠ (s.board.addr r).key) :
    Memory.read (s.completedWrite r v).mem a = Memory.read s.mem a :=
  Memory.read_write_other _ _ h

/-! ### afterRead -/

@[simp] theorem State.afterRead_board (r : Reg) :
    (s.afterRead r).board = s.board := by simp [State.afterRead]
@[simp] theorem State.afterRead_pending (r : Reg) :
    (s.afterRead r).pending = s.pending := by simp [State.afterRead]
@[simp] theorem State.afterRead_resp (r : Reg) :
    (s.afterRead r).resp = s.resp := by simp [State.afterRead]
@[simp] theorem State.afterRead_responses (r : Reg) :
    (s.afterRead r).responses = s.responses := by simp [State.afterRead]
@[simp] theorem State.afterRead_busy (r : Reg) :
    (s.afterRead r).busy = s.busy := by simp [State.afterRead]
@[simp] theorem State.afterRead_linkReady (r : Reg) :
    (s.afterRead r).linkReady = s.linkReady := by simp [State.afterRead]
@[simp] theorem State.afterRead_linkSpeed (r : Reg) :
    (s.afterRead r).linkSpeed = s.linkSpeed := by simp [State.afterRead]
@[simp] theorem State.afterRead_shadow (r : Reg) :
    (s.afterRead r).shadow = s.shadow := by
  simp [State.afterRead]
@[simp] theorem State.afterRead_shadowValid (r : Reg) :
    (s.afterRead r).shadowValid = s.shadowValid := by simp [State.afterRead]
@[simp] theorem State.afterRead_dataDir (r : Reg) :
    (s.afterRead r).dataDir = s.dataDir := by simp [State.afterRead]
@[simp] theorem State.afterRead_latch (r : Reg) :
    (s.afterRead r).latch = s.latch := by
  simp [State.afterRead]
@[simp] theorem State.afterRead_trace (r : Reg) :
    (s.afterRead r).trace = s.trace ++ [s.board.rd r (s.answer (s.drawAt 0) r)] := by
  simp [State.afterRead]
@[simp] theorem State.afterRead_dirData (r : Reg) :
    (s.afterRead r).expReg .dirData = s.expReg .dirData := rfl
@[simp] theorem State.afterRead_olatData (r : Reg) :
    (s.afterRead r).expReg .olatData = s.expReg .olatData := rfl
theorem State.afterRead_elsewhere (r : Reg) {a : Nat} :
    Memory.read (s.afterRead r).mem a = Memory.read s.mem a := rfl

/-! ### afterControl -/

@[simp] theorem State.afterControl_board (n : Byte) :
    (s.afterControl n).board = s.board := by simp [State.afterControl]
@[simp] theorem State.afterControl_pending (n : Byte) :
    (s.afterControl n).pending = s.pending := by simp [State.afterControl]
@[simp] theorem State.afterControl_resp (n : Byte) :
    (s.afterControl n).resp = s.resp := by simp [State.afterControl]
@[simp] theorem State.afterControl_responses (n : Byte) :
    (s.afterControl n).responses = s.responses := by simp [State.afterControl]
@[simp] theorem State.afterControl_busy (n : Byte) :
    (s.afterControl n).busy = s.busy := by simp [State.afterControl]
@[simp] theorem State.afterControl_linkReady (n : Byte) :
    (s.afterControl n).linkReady = s.linkReady := by simp [State.afterControl]
@[simp] theorem State.afterControl_linkSpeed (n : Byte) :
    (s.afterControl n).linkSpeed = s.linkSpeed := by simp [State.afterControl]
@[simp] theorem State.afterControl_shadow (n : Byte) :
    (s.afterControl n).shadow = n := by
  simp [State.afterControl]
@[simp] theorem State.afterControl_shadowValid (n : Byte) :
    (s.afterControl n).shadowValid = true := by simp [State.afterControl]
@[simp] theorem State.afterControl_dataDir (n : Byte) :
    (s.afterControl n).dataDir = s.dataDir := by simp [State.afterControl]
@[simp] theorem State.afterControl_latch (n : Byte) :
    (s.afterControl n).latch = n := by
  simp [State.afterControl]
@[simp] theorem State.afterControl_trace (n : Byte) :
    (s.afterControl n).trace = s.trace ++ [s.board.wr .olatCtrl n] := by
  simp [State.afterControl]
@[simp] theorem State.afterControl_dirData (n : Byte) :
    (s.afterControl n).expReg .dirData = s.expReg .dirData := by
  simp [State.afterControl, State.completedWrite_expReg_other]
@[simp] theorem State.afterControl_olatData (n : Byte) :
    (s.afterControl n).expReg .olatData = s.expReg .olatData := by
  simp [State.afterControl, State.completedWrite_expReg_other]
theorem State.afterControl_elsewhere (n : Byte) {a : Nat}
    (h1 : a ≠ (s.board.addr .olatCtrl).key) :
    Memory.read (s.afterControl n).mem a = Memory.read s.mem a := s.completedWrite_elsewhere _ _ h1

/-! ### afterDirection -/

@[simp] theorem State.afterDirection_board (v : Byte) (d : DataDir) :
    (s.afterDirection v d).board = s.board := by simp [State.afterDirection]
@[simp] theorem State.afterDirection_pending (v : Byte) (d : DataDir) :
    (s.afterDirection v d).pending = s.pending := by simp [State.afterDirection]
@[simp] theorem State.afterDirection_resp (v : Byte) (d : DataDir) :
    (s.afterDirection v d).resp = s.resp := by simp [State.afterDirection]
@[simp] theorem State.afterDirection_responses (v : Byte) (d : DataDir) :
    (s.afterDirection v d).responses = s.responses := by simp [State.afterDirection]
@[simp] theorem State.afterDirection_busy (v : Byte) (d : DataDir) :
    (s.afterDirection v d).busy = s.busy := by simp [State.afterDirection]
@[simp] theorem State.afterDirection_linkReady (v : Byte) (d : DataDir) :
    (s.afterDirection v d).linkReady = s.linkReady := by simp [State.afterDirection]
@[simp] theorem State.afterDirection_linkSpeed (v : Byte) (d : DataDir) :
    (s.afterDirection v d).linkSpeed = s.linkSpeed := by simp [State.afterDirection]
@[simp] theorem State.afterDirection_shadow (v : Byte) (d : DataDir) :
    (s.afterDirection v d).shadow = s.shadow := by
  simp [State.afterDirection]
@[simp] theorem State.afterDirection_shadowValid (v : Byte) (d : DataDir) :
    (s.afterDirection v d).shadowValid = s.shadowValid := by simp [State.afterDirection]
@[simp] theorem State.afterDirection_dataDir (v : Byte) (d : DataDir) :
    (s.afterDirection v d).dataDir = d := by simp [State.afterDirection]
@[simp] theorem State.afterDirection_latch (v : Byte) (d : DataDir) :
    (s.afterDirection v d).latch = s.latch := by
  simp [State.afterDirection]
@[simp] theorem State.afterDirection_trace (v : Byte) (d : DataDir) :
    (s.afterDirection v d).trace = s.trace ++ [s.board.wr .dirData v] := by
  simp [State.afterDirection]
@[simp] theorem State.afterDirection_dirData (v : Byte) (d : DataDir) :
    (s.afterDirection v d).expReg .dirData = v := by simp [State.afterDirection]
@[simp] theorem State.afterDirection_olatData (v : Byte) (d : DataDir) :
    (s.afterDirection v d).expReg .olatData = s.expReg .olatData := by
  simp [State.afterDirection, State.completedWrite_expReg_other]
theorem State.afterDirection_elsewhere (v : Byte) (d : DataDir) {a : Nat}
    (h1 : a ≠ (s.board.addr .dirData).key) :
    Memory.read (s.afterDirection v d).mem a = Memory.read s.mem a := s.completedWrite_elsewhere _ _ h1

/-! ### afterUpdate -/

@[simp] theorem State.afterUpdate_board (n : Byte) :
    (s.afterUpdate n).board = s.board := by simp [State.afterUpdate]
@[simp] theorem State.afterUpdate_pending (n : Byte) :
    (s.afterUpdate n).pending = s.pending := by simp [State.afterUpdate]
@[simp] theorem State.afterUpdate_resp (n : Byte) :
    (s.afterUpdate n).resp = s.resp := by simp [State.afterUpdate]
@[simp] theorem State.afterUpdate_responses (n : Byte) :
    (s.afterUpdate n).responses = s.responses := by simp [State.afterUpdate]
@[simp] theorem State.afterUpdate_busy (n : Byte) :
    (s.afterUpdate n).busy = s.busy := by simp [State.afterUpdate]
@[simp] theorem State.afterUpdate_linkReady (n : Byte) :
    (s.afterUpdate n).linkReady = s.linkReady := by simp [State.afterUpdate]
@[simp] theorem State.afterUpdate_linkSpeed (n : Byte) :
    (s.afterUpdate n).linkSpeed = s.linkSpeed := by simp [State.afterUpdate]
@[simp] theorem State.afterUpdate_shadow (n : Byte) :
    (s.afterUpdate n).shadow = n := by
  simp [State.afterUpdate]
@[simp] theorem State.afterUpdate_shadowValid (n : Byte) :
    (s.afterUpdate n).shadowValid = true := by simp [State.afterUpdate]
@[simp] theorem State.afterUpdate_dataDir (n : Byte) :
    (s.afterUpdate n).dataDir = s.dataDir := by simp [State.afterUpdate]
@[simp] theorem State.afterUpdate_latch (n : Byte) :
    (s.afterUpdate n).latch = n := by
  simp [State.afterUpdate]
@[simp] theorem State.afterUpdate_trace (n : Byte) :
    (s.afterUpdate n).trace = s.trace ++ s.board.updateEvents s.latch n := by
  simp [State.afterUpdate, Board.updateEvents]
@[simp] theorem State.afterUpdate_dirData (n : Byte) :
    (s.afterUpdate n).expReg .dirData = s.expReg .dirData := by simp [State.afterUpdate]
@[simp] theorem State.afterUpdate_olatData (n : Byte) :
    (s.afterUpdate n).expReg .olatData = s.expReg .olatData := by simp [State.afterUpdate]
theorem State.afterUpdate_elsewhere (n : Byte) {a : Nat}
    (h1 : a ≠ (s.board.addr .olatCtrl).key) :
    Memory.read (s.afterUpdate n).mem a = Memory.read s.mem a := by
  simp [State.afterUpdate, State.afterControl_elsewhere, State.afterRead_elsewhere, h1]

/-! ### afterSet -/

@[simp] theorem State.afterSet_board (m v : Byte) :
    (s.afterSet m v).board = s.board := by simp [State.afterSet]
@[simp] theorem State.afterSet_pending (m v : Byte) :
    (s.afterSet m v).pending = s.pending := by simp [State.afterSet]
@[simp] theorem State.afterSet_resp (m v : Byte) :
    (s.afterSet m v).resp = s.resp := by simp [State.afterSet]
@[simp] theorem State.afterSet_responses (m v : Byte) :
    (s.afterSet m v).responses = s.responses := by simp [State.afterSet]
@[simp] theorem State.afterSet_busy (m v : Byte) :
    (s.afterSet m v).busy = s.busy := by simp [State.afterSet]
@[simp] theorem State.afterSet_linkReady (m v : Byte) :
    (s.afterSet m v).linkReady = s.linkReady := by simp [State.afterSet]
@[simp] theorem State.afterSet_linkSpeed (m v : Byte) :
    (s.afterSet m v).linkSpeed = s.linkSpeed := by simp [State.afterSet]
@[simp] theorem State.afterSet_shadow (m v : Byte) :
    (s.afterSet m v).shadow = (mergeLevels s.board.sig m v s.latch) := by
  simp [State.afterSet]
@[simp] theorem State.afterSet_shadowValid (m v : Byte) :
    (s.afterSet m v).shadowValid = true := by simp [State.afterSet]
@[simp] theorem State.afterSet_dataDir (m v : Byte) :
    (s.afterSet m v).dataDir = s.dataDir := by simp [State.afterSet]
@[simp] theorem State.afterSet_latch (m v : Byte) :
    (s.afterSet m v).latch = (mergeLevels s.board.sig m v s.latch) := by
  simp [State.afterSet]
@[simp] theorem State.afterSet_trace (m v : Byte) :
    (s.afterSet m v).trace = s.trace ++ s.board.updateEvents s.latch (mergeLevels s.board.sig m v s.latch) := by
  simp [State.afterSet]
@[simp] theorem State.afterSet_dirData (m v : Byte) :
    (s.afterSet m v).expReg .dirData = s.expReg .dirData := by simp [State.afterSet]
@[simp] theorem State.afterSet_olatData (m v : Byte) :
    (s.afterSet m v).expReg .olatData = s.expReg .olatData := by simp [State.afterSet]
theorem State.afterSet_elsewhere (m v : Byte) {a : Nat}
    (h1 : a ≠ (s.board.addr .olatCtrl).key) :
    Memory.read (s.afterSet m v).mem a = Memory.read s.mem a := by
  simp [State.afterSet, State.afterUpdate_elsewhere, h1]

/-! ### afterStrobe -/

@[simp] theorem State.afterStrobe_board (x : Signal) :
    (s.afterStrobe x).board = s.board := by simp [State.afterStrobe]
@[simp] theorem State.afterStrobe_pending (x : Signal) :
    (s.afterStrobe x).pending = s.pending := by simp [State.afterStrobe]
@[simp] theorem State.afterStrobe_resp (x : Signal) :
    (s.afterStrobe x).resp = s.resp := by simp [State.afterStrobe]
@[simp] theorem State.afterStrobe_responses (x : Signal) :
    (s.afterStrobe x).responses = s.responses := by simp [State.afterStrobe]
@[simp] theorem State.afterStrobe_busy (x : Signal) :
    (s.afterStrobe x).busy = s.busy := by simp [State.afterStrobe]
@[simp] theorem State.afterStrobe_linkReady (x : Signal) :
    (s.afterStrobe x).linkReady = s.linkReady := by simp [State.afterStrobe]
@[simp] theorem State.afterStrobe_linkSpeed (x : Signal) :
    (s.afterStrobe x).linkSpeed = s.linkSpeed := by simp [State.afterStrobe]
@[simp] theorem State.afterStrobe_shadow (x : Signal) :
    (s.afterStrobe x).shadow = (invertSignal s.board.sig x s.latch) := by
  simp [State.afterStrobe]
@[simp] theorem State.afterStrobe_shadowValid (x : Signal) :
    (s.afterStrobe x).shadowValid = true := by simp [State.afterStrobe]
@[simp] theorem State.afterStrobe_dataDir (x : Signal) :
    (s.afterStrobe x).dataDir = s.dataDir := by simp [State.afterStrobe]
@[simp] theorem State.afterStrobe_latch (x : Signal) :
    (s.afterStrobe x).latch = (invertSignal s.board.sig x s.latch) := by
  simp [State.afterStrobe]
@[simp] theorem State.afterStrobe_trace (x : Signal) :
    (s.afterStrobe x).trace = s.trace ++ (s.board.updateEvents s.latch (invertSignal s.board.sig x s.latch) ++ [s.board.hold]) := by
  simp [State.afterStrobe, Board.hold]
@[simp] theorem State.afterStrobe_dirData (x : Signal) :
    (s.afterStrobe x).expReg .dirData = s.expReg .dirData := by simp [State.afterStrobe]
@[simp] theorem State.afterStrobe_olatData (x : Signal) :
    (s.afterStrobe x).expReg .olatData = s.expReg .olatData := by simp [State.afterStrobe]
theorem State.afterStrobe_elsewhere (x : Signal) {a : Nat}
    (h1 : a ≠ (s.board.addr .olatCtrl).key) :
    Memory.read (s.afterStrobe x).mem a = Memory.read s.mem a := by
  simp [State.afterStrobe, State.afterUpdate_elsewhere, h1]

/-! ### afterRelease -/

@[simp] theorem State.afterRelease_board :
    (s.afterRelease).board = s.board := by simp [State.afterRelease]
@[simp] theorem State.afterRelease_pending :
    (s.afterRelease).pending = s.pending := by simp [State.afterRelease]
@[simp] theorem State.afterRelease_resp :
    (s.afterRelease).resp = s.resp := by simp [State.afterRelease]
@[simp] theorem State.afterRelease_responses :
    (s.afterRelease).responses = s.responses := by simp [State.afterRelease]
@[simp] theorem State.afterRelease_busy :
    (s.afterRelease).busy = s.busy := by simp [State.afterRelease]
@[simp] theorem State.afterRelease_linkReady :
    (s.afterRelease).linkReady = s.linkReady := by simp [State.afterRelease]
@[simp] theorem State.afterRelease_linkSpeed :
    (s.afterRelease).linkSpeed = s.linkSpeed := by simp [State.afterRelease]
@[simp] theorem State.afterRelease_shadow :
    (s.afterRelease).shadow = s.shadow := by
  simp [State.afterRelease]
@[simp] theorem State.afterRelease_shadowValid :
    (s.afterRelease).shadowValid = s.shadowValid := by simp [State.afterRelease]
@[simp] theorem State.afterRelease_dataDir :
    (s.afterRelease).dataDir = .input := by simp [State.afterRelease]
@[simp] theorem State.afterRelease_latch :
    (s.afterRelease).latch = s.latch := by
  simp [State.afterRelease]
@[simp] theorem State.afterRelease_trace :
    (s.afterRelease).trace = s.trace ++ [s.board.wr .dirData s.board.raw.dirAllIn] := by
  simp [State.afterRelease]
@[simp] theorem State.afterRelease_dirData :
    (s.afterRelease).expReg .dirData = s.board.raw.dirAllIn := by simp [State.afterRelease]
@[simp] theorem State.afterRelease_olatData :
    (s.afterRelease).expReg .olatData = s.expReg .olatData := by simp [State.afterRelease]
theorem State.afterRelease_elsewhere {a : Nat}
    (h1 : a ≠ (s.board.addr .dirData).key) :
    Memory.read (s.afterRelease).mem a = Memory.read s.mem a := by
  simp [State.afterRelease, State.afterDirection_elsewhere, h1]

/-! ### afterWriteData -/

@[simp] theorem State.afterWriteData_board (b : Byte) :
    (s.afterWriteData b).board = s.board := by simp [State.afterWriteData]
@[simp] theorem State.afterWriteData_pending (b : Byte) :
    (s.afterWriteData b).pending = s.pending := by simp [State.afterWriteData]
@[simp] theorem State.afterWriteData_resp (b : Byte) :
    (s.afterWriteData b).resp = s.resp := by simp [State.afterWriteData]
@[simp] theorem State.afterWriteData_responses (b : Byte) :
    (s.afterWriteData b).responses = s.responses := by simp [State.afterWriteData]
@[simp] theorem State.afterWriteData_busy (b : Byte) :
    (s.afterWriteData b).busy = s.busy := by simp [State.afterWriteData]
@[simp] theorem State.afterWriteData_linkReady (b : Byte) :
    (s.afterWriteData b).linkReady = s.linkReady := by simp [State.afterWriteData]
@[simp] theorem State.afterWriteData_linkSpeed (b : Byte) :
    (s.afterWriteData b).linkSpeed = s.linkSpeed := by simp [State.afterWriteData]
@[simp] theorem State.afterWriteData_shadow (b : Byte) :
    (s.afterWriteData b).shadow = s.shadow := by
  simp [State.afterWriteData]
@[simp] theorem State.afterWriteData_shadowValid (b : Byte) :
    (s.afterWriteData b).shadowValid = s.shadowValid := by simp [State.afterWriteData]
@[simp] theorem State.afterWriteData_dataDir (b : Byte) :
    (s.afterWriteData b).dataDir = .output := by simp [State.afterWriteData]
@[simp] theorem State.afterWriteData_latch (b : Byte) :
    (s.afterWriteData b).latch = s.latch := by
  simp [State.afterWriteData]
@[simp] theorem State.afterWriteData_trace (b : Byte) :
    (s.afterWriteData b).trace = s.trace ++ [s.board.wr .dirData s.board.raw.dirAllOut, s.board.wr .olatData b] := by
  simp [State.afterWriteData]
@[simp] theorem State.afterWriteData_dirData (b : Byte) :
    (s.afterWriteData b).expReg .dirData = s.board.raw.dirAllOut := by
  simp [State.afterWriteData, State.completedWrite_expReg_other]
@[simp] theorem State.afterWriteData_olatData (b : Byte) :
    (s.afterWriteData b).expReg .olatData = b := by simp [State.afterWriteData]
theorem State.afterWriteData_elsewhere (b : Byte) {a : Nat}
    (h1 : a ≠ (s.board.addr .dirData).key)
    (h2 : a ≠ (s.board.addr .olatData).key) :
    Memory.read (s.afterWriteData b).mem a = Memory.read s.mem a := by
  simp [State.afterWriteData, State.afterDirection_elsewhere, State.completedWrite_elsewhere, h1, h2]

/-! ### afterReadData -/

@[simp] theorem State.afterReadData_board :
    (s.afterReadData).board = s.board := by simp [State.afterReadData]
@[simp] theorem State.afterReadData_pending :
    (s.afterReadData).pending = s.pending := by simp [State.afterReadData]
@[simp] theorem State.afterReadData_resp :
    (s.afterReadData).resp = s.resp := by simp [State.afterReadData]
@[simp] theorem State.afterReadData_responses :
    (s.afterReadData).responses = s.responses := by simp [State.afterReadData]
@[simp] theorem State.afterReadData_busy :
    (s.afterReadData).busy = s.busy := by simp [State.afterReadData]
@[simp] theorem State.afterReadData_linkReady :
    (s.afterReadData).linkReady = s.linkReady := by simp [State.afterReadData]
@[simp] theorem State.afterReadData_linkSpeed :
    (s.afterReadData).linkSpeed = s.linkSpeed := by simp [State.afterReadData]
@[simp] theorem State.afterReadData_shadow :
    (s.afterReadData).shadow = s.shadow := by
  simp [State.afterReadData]
@[simp] theorem State.afterReadData_shadowValid :
    (s.afterReadData).shadowValid = s.shadowValid := by simp [State.afterReadData]
@[simp] theorem State.afterReadData_dataDir :
    (s.afterReadData).dataDir = .input := by simp [State.afterReadData]
@[simp] theorem State.afterReadData_latch :
    (s.afterReadData).latch = s.latch := by
  simp [State.afterReadData]
@[simp] theorem State.afterReadData_trace :
    (s.afterReadData).trace = s.trace ++ [s.board.wr .dirData s.board.raw.dirAllIn, s.board.rd .inData (s.drawAt 1).pins] := by
  simp [State.afterReadData]
@[simp] theorem State.afterReadData_dirData :
    (s.afterReadData).expReg .dirData = s.board.raw.dirAllIn := by simp [State.afterReadData]
@[simp] theorem State.afterReadData_olatData :
    (s.afterReadData).expReg .olatData = s.expReg .olatData := by simp [State.afterReadData]
theorem State.afterReadData_elsewhere {a : Nat}
    (h1 : a ≠ (s.board.addr .dirData).key) :
    Memory.read (s.afterReadData).mem a = Memory.read s.mem a := by
  simp [State.afterReadData, State.afterRelease_elsewhere, State.afterRead_elsewhere, h1]

/-! ### afterPulse -/

@[simp] theorem State.afterPulse_board (x : Signal) :
    (s.afterPulse x).board = s.board := by simp [State.afterPulse]
@[simp] theorem State.afterPulse_pending (x : Signal) :
    (s.afterPulse x).pending = s.pending := by simp [State.afterPulse]
@[simp] theorem State.afterPulse_resp (x : Signal) :
    (s.afterPulse x).resp = s.resp := by simp [State.afterPulse]
@[simp] theorem State.afterPulse_responses (x : Signal) :
    (s.afterPulse x).responses = s.responses := by simp [State.afterPulse]
@[simp] theorem State.afterPulse_busy (x : Signal) :
    (s.afterPulse x).busy = s.busy := by simp [State.afterPulse]
@[simp] theorem State.afterPulse_linkReady (x : Signal) :
    (s.afterPulse x).linkReady = s.linkReady := by simp [State.afterPulse]
@[simp] theorem State.afterPulse_linkSpeed (x : Signal) :
    (s.afterPulse x).linkSpeed = s.linkSpeed := by simp [State.afterPulse]
@[simp] theorem State.afterPulse_shadow (x : Signal) :
    (s.afterPulse x).shadow = s.latch := by
  simp [State.afterPulse]
@[simp] theorem State.afterPulse_shadowValid (x : Signal) :
    (s.afterPulse x).shadowValid = true := by simp [State.afterPulse]
@[simp] theorem State.afterPulse_dataDir (x : Signal) :
    (s.afterPulse x).dataDir = s.dataDir := by simp [State.afterPulse]
@[simp] theorem State.afterPulse_latch (x : Signal) :
    (s.afterPulse x).latch = s.latch := by
  simp [State.afterPulse]
@[simp] theorem State.afterPulse_trace (x : Signal) :
    (s.afterPulse x).trace = s.trace ++ s.board.pulseEvents x s.latch := by
  simp [State.afterPulse, Board.pulseEvents]
@[simp] theorem State.afterPulse_dirData (x : Signal) :
    (s.afterPulse x).expReg .dirData = s.expReg .dirData := by simp [State.afterPulse]
@[simp] theorem State.afterPulse_olatData (x : Signal) :
    (s.afterPulse x).expReg .olatData = s.expReg .olatData := by simp [State.afterPulse]
theorem State.afterPulse_elsewhere (x : Signal) {a : Nat}
    (h1 : a ≠ (s.board.addr .olatCtrl).key) :
    Memory.read (s.afterPulse x).mem a = Memory.read s.mem a := by
  simp [State.afterPulse, State.afterStrobe_elsewhere, h1]

/-! ### afterSelect -/

@[simp] theorem State.afterSelect_board (sel : Selector) :
    (s.afterSelect sel).board = s.board := by simp [State.afterSelect]
@[simp] theorem State.afterSelect_pending (sel : Selector) :
    (s.afterSelect sel).pending = s.pending := by simp [State.afterSelect]
@[simp] theorem State.afterSelect_resp (sel : Selector) :
    (s.afterSelect sel).resp = s.resp := by simp [State.afterSelect]
@[simp] theorem State.afterSelect_responses (sel : Selector) :
    (s.afterSelect sel).responses = s.responses := by simp [State.afterSelect]
@[simp] theorem State.afterSelect_busy (sel : Selector) :
    (s.afterSelect sel).busy = s.busy := by simp [State.afterSelect]
@[simp] theorem State.afterSelect_linkReady (sel : Selector) :
    (s.afterSelect sel).linkReady = s.linkReady := by simp [State.afterSelect]
@[simp] theorem State.afterSelect_linkSpeed (sel : Selector) :
    (s.afterSelect sel).linkSpeed = s.linkSpeed := by simp [State.afterSelect]
@[simp] theorem State.afterSelect_shadow (sel : Selector) :
    (s.afterSelect sel).shadow = (s.board.selectWord sel s.latch) := by
  simp [State.afterSelect, Board.selectWord]
@[simp] theorem State.afterSelect_shadowValid (sel : Selector) :
    (s.afterSelect sel).shadowValid = true := by simp [State.afterSelect]
@[simp] theorem State.afterSelect_dataDir (sel : Selector) :
    (s.afterSelect sel).dataDir = s.dataDir := by simp [State.afterSelect]
@[simp] theorem State.afterSelect_latch (sel : Selector) :
    (s.afterSelect sel).latch = (s.board.selectWord sel s.latch) := by
  simp [State.afterSelect, Board.selectWord]
@[simp] theorem State.afterSelect_trace (sel : Selector) :
    (s.afterSelect sel).trace = s.trace ++ s.board.updateEvents s.latch (s.board.selectWord sel s.latch) := by
  simp [State.afterSelect, Board.selectWord]
@[simp] theorem State.afterSelect_dirData (sel : Selector) :
    (s.afterSelect sel).expReg .dirData = s.expReg .dirData := by simp [State.afterSelect]
@[simp] theorem State.afterSelect_olatData (sel : Selector) :
    (s.afterSelect sel).expReg .olatData = s.expReg .olatData := by simp [State.afterSelect]
theorem State.afterSelect_elsewhere (sel : Selector) {a : Nat}
    (h1 : a ≠ (s.board.addr .olatCtrl).key) :
    Memory.read (s.afterSelect sel).mem a = Memory.read s.mem a := by
  simp [State.afterSelect, State.afterSet_elsewhere, h1]

/-! ### afterAccessRead -/

@[simp] theorem State.afterAccessRead_board (sel : Selector) :
    (s.afterAccessRead sel).board = s.board := by simp [State.afterAccessRead]
@[simp] theorem State.afterAccessRead_pending (sel : Selector) :
    (s.afterAccessRead sel).pending = s.pending := by simp [State.afterAccessRead]
@[simp] theorem State.afterAccessRead_resp (sel : Selector) :
    (s.afterAccessRead sel).resp = s.resp := by simp [State.afterAccessRead]
@[simp] theorem State.afterAccessRead_responses (sel : Selector) :
    (s.afterAccessRead sel).responses = s.responses := by simp [State.afterAccessRead]
@[simp] theorem State.afterAccessRead_busy (sel : Selector) :
    (s.afterAccessRead sel).busy = s.busy := by simp [State.afterAccessRead]
@[simp] theorem State.afterAccessRead_linkReady (sel : Selector) :
    (s.afterAccessRead sel).linkReady = s.linkReady := by simp [State.afterAccessRead]
@[simp] theorem State.afterAccessRead_linkSpeed (sel : Selector) :
    (s.afterAccessRead sel).linkSpeed = s.linkSpeed := by simp [State.afterAccessRead]
@[simp] theorem State.afterAccessRead_shadow (sel : Selector) :
    (s.afterAccessRead sel).shadow = (s.board.csOffWord (s.board.levelWord .csn false (s.board.selectWord sel s.latch))) := by
  simp [State.afterAccessRead, Board.levelWord, Board.csOffWord, levelMask]
@[simp] theorem State.afterAccessRead_shadowValid (sel : Selector) :
    (s.afterAccessRead sel).shadowValid = true := by simp [State.afterAccessRead]
@[simp] theorem State.afterAccessRead_dataDir (sel : Selector) :
    (s.afterAccessRead sel).dataDir = .input := by simp [State.afterAccessRead]
@[simp] theorem State.afterAccessRead_latch (sel : Selector) :
    (s.afterAccessRead sel).latch = (s.board.csOffWord (s.board.levelWord .csn false (s.board.selectWord sel s.latch))) := by
  simp [State.afterAccessRead, Board.levelWord, Board.csOffWord, levelMask]
@[simp] theorem State.afterAccessRead_trace (sel : Selector) :
    (s.afterAccessRead sel).trace = s.trace ++ s.board.readAccessEvents sel s.latch (s.drawAt 5).pins := by
  simp [State.afterAccessRead, Board.readAccessEvents, Board.levelWord, Board.csOffWord, levelMask]
@[simp] theorem State.afterAccessRead_dirData (sel : Selector) :
    (s.afterAccessRead sel).expReg .dirData = s.board.raw.dirAllIn := by simp [State.afterAccessRead]
@[simp] theorem State.afterAccessRead_olatData (sel : Selector) :
    (s.afterAccessRead sel).expReg .olatData = s.expReg .olatData := by simp [State.afterAccessRead]
theorem State.afterAccessRead_elsewhere (sel : Selector) {a : Nat}
    (h1 : a ≠ (s.board.addr .olatCtrl).key)
    (h2 : a ≠ (s.board.addr .dirData).key) :
    Memory.read (s.afterAccessRead sel).mem a = Memory.read s.mem a := by
  simp [State.afterAccessRead, State.afterSelect_elsewhere, State.afterSet_elsewhere, State.afterReadData_elsewhere, h1, h2]

/-! ### afterAccessWrite -/

@[simp] theorem State.afterAccessWrite_board (sel : Selector) (b : Byte) :
    (s.afterAccessWrite sel b).board = s.board := by simp [State.afterAccessWrite]
@[simp] theorem State.afterAccessWrite_pending (sel : Selector) (b : Byte) :
    (s.afterAccessWrite sel b).pending = s.pending := by simp [State.afterAccessWrite]
@[simp] theorem State.afterAccessWrite_resp (sel : Selector) (b : Byte) :
    (s.afterAccessWrite sel b).resp = s.resp := by simp [State.afterAccessWrite]
@[simp] theorem State.afterAccessWrite_responses (sel : Selector) (b : Byte) :
    (s.afterAccessWrite sel b).responses = s.responses := by simp [State.afterAccessWrite]
@[simp] theorem State.afterAccessWrite_busy (sel : Selector) (b : Byte) :
    (s.afterAccessWrite sel b).busy = s.busy := by simp [State.afterAccessWrite]
@[simp] theorem State.afterAccessWrite_linkReady (sel : Selector) (b : Byte) :
    (s.afterAccessWrite sel b).linkReady = s.linkReady := by simp [State.afterAccessWrite]
@[simp] theorem State.afterAccessWrite_linkSpeed (sel : Selector) (b : Byte) :
    (s.afterAccessWrite sel b).linkSpeed = s.linkSpeed := by simp [State.afterAccessWrite]
@[simp] theorem State.afterAccessWrite_shadow (sel : Selector) (b : Byte) :
    (s.afterAccessWrite sel b).shadow = (s.board.selectWord sel s.latch) := by
  simp [State.afterAccessWrite]
@[simp] theorem State.afterAccessWrite_shadowValid (sel : Selector) (b : Byte) :
    (s.afterAccessWrite sel b).shadowValid = true := by simp [State.afterAccessWrite]
@[simp] theorem State.afterAccessWrite_dataDir (sel : Selector) (b : Byte) :
    (s.afterAccessWrite sel b).dataDir = .input := by simp [State.afterAccessWrite]
@[simp] theorem State.afterAccessWrite_latch (sel : Selector) (b : Byte) :
    (s.afterAccessWrite sel b).latch = (s.board.selectWord sel s.latch) := by
  simp [State.afterAccessWrite]
@[simp] theorem State.afterAccessWrite_trace (sel : Selector) (b : Byte) :
    (s.afterAccessWrite sel b).trace = s.trace ++ s.board.writeAccessEvents sel b s.latch := by
  simp [State.afterAccessWrite, Board.writeAccessEvents]
@[simp] theorem State.afterAccessWrite_dirData (sel : Selector) (b : Byte) :
    (s.afterAccessWrite sel b).expReg .dirData = s.board.raw.dirAllIn := by simp [State.afterAccessWrite]
@[simp] theorem State.afterAccessWrite_olatData (sel : Selector) (b : Byte) :
    (s.afterAccessWrite sel b).expReg .olatData = b := by simp [State.afterAccessWrite]
theorem State.afterAccessWrite_elsewhere (sel : Selector) (b : Byte) {a : Nat}
    (h1 : a ≠ (s.board.addr .olatCtrl).key)
    (h2 : a ≠ (s.board.addr .dirData).key)
    (h3 : a ≠ (s.board.addr .olatData).key) :
    Memory.read (s.afterAccessWrite sel b).mem a = Memory.read s.mem a := by
  simp [State.afterAccessWrite, State.afterSelect_elsewhere, State.afterWriteData_elsewhere, State.afterPulse_elsewhere, State.afterRelease_elsewhere, h1, h2, h3]

/-! ### afterConstruct -/

@[simp] theorem State.afterConstruct_board (n : LinkSpeed) :
    (s.afterConstruct n).board = s.board := by simp [State.afterConstruct]
@[simp] theorem State.afterConstruct_pending (n : LinkSpeed) :
    (s.afterConstruct n).pending = s.pending := by simp [State.afterConstruct]
@[simp] theorem State.afterConstruct_resp (n : LinkSpeed) :
    (s.afterConstruct n).resp = s.resp := by simp [State.afterConstruct]
@[simp] theorem State.afterConstruct_responses (n : LinkSpeed) :
    (s.afterConstruct n).responses = s.responses := by simp [State.afterConstruct]
@[simp] theorem State.afterConstruct_busy (n : LinkSpeed) :
    (s.afterConstruct n).busy = s.busy := by simp [State.afterConstruct]
@[simp] theorem State.afterConstruct_linkReady (n : LinkSpeed) :
    (s.afterConstruct n).linkReady = true := by simp [State.afterConstruct]
@[simp] theorem State.afterConstruct_linkSpeed (n : LinkSpeed) :
    (s.afterConstruct n).linkSpeed = some n := by simp [State.afterConstruct]
@[simp] theorem State.afterConstruct_shadow (n : LinkSpeed) :
    (s.afterConstruct n).shadow = (s.board.constructWords n s.latch).2.2.2 := by
  simp [State.afterConstruct, Board.constructWords, Board.levelWord, levelMask]
@[simp] theorem State.afterConstruct_shadowValid (n : LinkSpeed) :
    (s.afterConstruct n).shadowValid = true := by simp [State.afterConstruct]
@[simp] theorem State.afterConstruct_dataDir (n : LinkSpeed) :
    (s.afterConstruct n).dataDir = s.dataDir := by simp [State.afterConstruct]
@[simp] theorem State.afterConstruct_latch (n : LinkSpeed) :
    (s.afterConstruct n).latch = (s.board.constructWords n s.latch).2.2.2 := by
  simp [State.afterConstruct, Board.constructWords, Board.levelWord, levelMask]
@[simp] theorem State.afterConstruct_trace (n : LinkSpeed) :
    (s.afterConstruct n).trace = s.trace ++ s.board.constructEvents n s.latch := by
  simp [State.afterConstruct, Board.constructEvents, Board.constructWords, Board.levelWord, levelMask]
@[simp] theorem State.afterConstruct_dirData (n : LinkSpeed) :
    (s.afterConstruct n).expReg .dirData = s.expReg .dirData := by simp [State.afterConstruct]
@[simp] theorem State.afterConstruct_olatData (n : LinkSpeed) :
    (s.afterConstruct n).expReg .olatData = s.expReg .olatData := by simp [State.afterConstruct]
theorem State.afterConstruct_elsewhere (n : LinkSpeed) {a : Nat}
    (h1 : a ≠ (s.board.addr .olatCtrl).key) :
    Memory.read (s.afterConstruct n).mem a = Memory.read s.mem a := by
  rw [State.afterConstruct, State.setLinkReady_mem, State.afterSet_elsewhere _ _ _ (by simpa using h1), State.setLinkSpeed_mem,
    State.afterSet_elsewhere _ _ _ (by simpa using h1), State.afterSet_elsewhere _ _ _ (by simpa using h1),
    State.afterSet_elsewhere _ _ _ (by simpa using h1), State.setLinkReady_mem]

end Sys2Proof.Machine
end

