-- ==== Sys2Proof/Laws/Exec.lean ====
section
/-! SUPPORT. What every command does, said once: its body, the state it leaves when it completes, that it
completes on a quiet bus, and that a command which answered OK left exactly that state. -/

namespace Sys2Proof.Machine

/-- The sequence of a command. -/
def commandBody : Instr → Op Response
  | .rddata => do
    let v ← readData
    respond .ok v
  | .wrdata b => do
    writeData b
    respond .ok 0x00
  | .setsig m v => do
    setSignals m v
    respond .ok 0x00
  | .strobe m => do
    strobeSignal m
    respond .ok 0x00
  | .reldata => do
    releaseData
    respond .ok 0x00
  | .rdshadow => do
    let valid ← viewState fun s => s.shadowValid
    let v ← viewState fun s => s.shadow
    if valid then respond .ok v else respond .shadowUnknown 0x00
  | .linkinit b => match speedOf b with
    | some n => do
      construct n
      respond .ok 0x00
    | none => raise .invalidArgument
  | .linkinitd => do
    let n ← viewState fun s => s.board.raw.defaultLinkSpeed
    construct n
    respond .ok 0x00
  | .datapresent => do
    requireLink
    let v ← accessRead .isrRd
    respond .ok (boolData (statusBit v))
  | .outputready => do
    requireLink
    let v ← accessRead .osrRd
    respond .ok (boolData (statusBit v))
  | .inten => do
    requireLink
    accessWrite .isrWr 0x02
    accessWrite .osrWr 0x02
    ssOff
    respond .ok 0x00
  | .intdis => do
    requireLink
    accessWrite .isrWr 0x00
    accessWrite .osrWr 0x00
    ssOff
    respond .ok 0x00
  | .write b => do
    requireLink
    accessWrite .odrWr b
    ssOff
    respond .ok 0x00
  | .read => do
    requireLink
    let v ← accessRead .idrRd
    respond .ok v
  | .reset => do
    requireLink
    pulse .lrst
    respond .ok 0x00
  | .resetlvl l => do
    requireLink
    setSignals (maskOf [.lrst]) (levelMask .lrst l)
    respond .ok 0x00

/-- Every command runs its sequence from its start to its response. -/
theorem exec_eq (i : Instr) (s : State) : exec i s = .next (endCommand (commandBody i s.start)) := by
  cases i <;> rfl

/-- Every command keeps a relation its primitives keep. -/
theorem Primitives.body {P : State → State → Prop} {E : Status → State → State → Prop} (p : Primitives P E)
    (i : Instr) : Meets P E (commandBody i) := by
  have link {β : Type} {x : Op β} {f : β → Op Response} (hx : Meets P E x) (hf : ∀ a, Meets P E (f a)) :
      Meets P E (do Machine.requireLink; let v ← x; f v) :=
    .bind p.seq p.requireLink fun _ => .bind p.seq hx hf
  cases i with
  | rddata => exact .bind p.seq p.readData fun _ => .respond p.seq _ _
  | wrdata b => exact .bind p.seq (p.write b) fun _ => .respond p.seq _ _
  | setsig m v => exact .bind p.seq (p.set m v) fun _ => .respond p.seq _ _
  | strobe m => exact .bind p.seq (p.strobe m) fun _ => .respond p.seq _ _
  | reldata => exact .bind p.seq p.release fun _ => .respond p.seq _ _
  | rdshadow =>
    refine .bind p.seq (.view p.seq _) fun v => .bind p.seq (.view p.seq _) fun _ => ?_
    cases v <;> exact .respond p.seq _ _
  | linkinit b =>
    simp only [commandBody]
    cases speedOf b with
    | none => exact p.invalid
    | some n => exact .bind p.seq (p.construct n) fun _ => .respond p.seq _ _
  | linkinitd => exact .bind p.seq (.view p.seq _) fun _ => .bind p.seq (p.construct _) fun _ => .respond p.seq _ _
  | datapresent => exact link (p.accessRead _) fun _ => .respond p.seq _ _
  | outputready => exact link (p.accessRead _) fun _ => .respond p.seq _ _
  | inten =>
    exact link (p.accessWrite _ _) fun _ => .bind p.seq (p.accessWrite _ _) fun _ =>
      .bind p.seq (p.set _ _) fun _ => .respond p.seq _ _
  | intdis =>
    exact link (p.accessWrite _ _) fun _ => .bind p.seq (p.accessWrite _ _) fun _ =>
      .bind p.seq (p.set _ _) fun _ => .respond p.seq _ _
  | write b => exact link (p.accessWrite _ _) fun _ => .bind p.seq (p.set _ _) fun _ => .respond p.seq _ _
  | read => exact link (p.accessRead _) fun _ => .respond p.seq _ _
  | reset => exact link (p.pulse _) fun _ => .respond p.seq _ _
  | resetlvl l => exact link (p.set _ _) fun _ => .respond p.seq _ _

/-- The state of a sequence that completed, before its response. -/
def completedState (s : State) : Instr → State
  | .rddata => s.afterReadData
  | .wrdata b => s.afterWriteData b
  | .setsig m v => s.afterSet m v
  | .strobe m => match namedSignals m with
    | [x] => s.afterStrobe x
    | _ => s
  | .reldata => s.afterRelease
  | .rdshadow => s
  | .linkinit b => match speedOf b with
    | some n => s.afterConstruct n
    | none => s
  | .linkinitd => s.afterConstruct s.board.raw.defaultLinkSpeed
  | .datapresent => s.afterAccessRead .isrRd
  | .outputready => s.afterAccessRead .osrRd
  | .inten => ((s.afterAccessWrite .isrWr 0x02).afterAccessWrite .osrWr 0x02).afterSet (maskOf [.ss]) 0
  | .intdis => ((s.afterAccessWrite .isrWr 0x00).afterAccessWrite .osrWr 0x00).afterSet (maskOf [.ss]) 0
  | .write b => (s.afterAccessWrite .odrWr b).afterSet (maskOf [.ss]) 0
  | .read => s.afterAccessRead .idrRd
  | .reset => s.afterPulse .lrst
  | .resetlvl l => s.afterSet (maskOf [.lrst]) (levelMask .lrst l)

/-- The data byte of a sequence that completed. -/
def completedData (s : State) : Instr → Byte
  | .rddata => (s.drawAt 1).pins
  | .rdshadow => s.shadow
  | .datapresent | .outputready => boolData (statusBit (s.drawAt 5).pins)
  | .read => (s.drawAt 5).pins
  | .wrdata _ | .setsig _ _ | .strobe _ | .reldata | .linkinit _ | .linkinitd | .inten | .intdis | .write _
  | .reset | .resetlvl _ => 0x00

theorem requireLink_ok {s t : State} {u : Unit} (h : requireLink s = .ok u t) : s.linkReady = true ∧ t = s := by
  unfold requireLink at h
  split at h
  · next hr => cases h; exact ⟨hr, rfl⟩
  · cases h

theorem requireLink_ready {s : State} (h : s.linkReady = true) : requireLink s = .ok () s := by
  simp [requireLink, h]

theorem popcount_one {m : Byte} (h : popcount m = 1) : ∃ x, namedSignals m = [x] := by
  rw [popcount_eq_length] at h
  exact List.length_eq_one_iff.1 h

/-- A mask that names exactly one signal is that signal's mask. -/
theorem strobeSignal_named {m : Byte} {x : Signal} (h : namedSignals m = [x]) :
    strobeSignal m = strobeSignal (maskOf [x]) := by
  rw [strobeSignal_one]
  unfold strobeSignal
  rw [h]

theorem strobeSignal_rejects {m : Byte} (h : popcount m ≠ 1) : strobeSignal m = raise .invalidArgument := by
  unfold strobeSignal
  split
  · next x hx => rw [popcount_eq_length, hx] at h; exact absurd rfl h
  · rfl

/-- The only refused speeds are those other than 10 and 20 (R160). -/
theorem speedOf_eq_none {b : Byte} : speedOf b = none ↔ b ≠ 10 ∧ b ≠ 20 := by
  unfold speedOf
  split
  · simp_all
  · split <;> simp_all

/-- A sequence that gave an OK response met a quiet bus and left the completed state. -/
theorem commandBody_ok {i : Instr} {s t : State} {d : Byte} (h : commandBody i s = .ok ⟨.ok, d⟩ t) :
    s.quiet (transactionTable i).1 ∧ (needsLink i = true → s.linkReady = true) ∧ argumentOk i = true ∧
      d = completedData s i ∧ t = completedState s i := by
  have tail {α : Type} {x : Op α} {f : α → Byte} {s : State}
      (h : (x >>= fun a => respond .ok (f a)) s = .ok ⟨.ok, d⟩ t) : ∃ a, x s = .ok a t ∧ d = f a := by
    obtain ⟨a, u, hx, hr⟩ := bind_eq_ok.1 h
    cases hr
    exact ⟨a, hx, rfl⟩
  have linked {β : Type} {x : Op β} {s : State} {r : β} (h : (requireLink >>= fun _ => x) s = .ok r t) :
      s.linkReady = true ∧ x s = .ok r t := by
    obtain ⟨_, u, hl, hx⟩ := bind_eq_ok.1 h
    obtain ⟨hr, rfl⟩ := requireLink_ok hl
    exact ⟨hr, hx⟩
  cases i with
  | rddata =>
    obtain ⟨a, hx, rfl⟩ := tail h
    obtain ⟨q, rfl, rfl⟩ := readData_ok hx
    exact ⟨q, by simp [needsLink], rfl, rfl, rfl⟩
  | wrdata b =>
    obtain ⟨a, hx, rfl⟩ := tail h
    obtain ⟨q, rfl⟩ := writeData_ok hx
    exact ⟨q, by simp [needsLink], rfl, rfl, rfl⟩
  | setsig m v =>
    obtain ⟨a, hx, rfl⟩ := tail h
    obtain ⟨q, rfl⟩ := setSignals_ok hx
    exact ⟨q, by simp [needsLink], rfl, rfl, rfl⟩
  | strobe m =>
    obtain ⟨a, hx, rfl⟩ := tail h
    by_cases hm : popcount m = 1
    · obtain ⟨x, hn⟩ := popcount_one hm
      rw [strobeSignal_named hn] at hx
      obtain ⟨q, rfl⟩ := strobeSignal_ok hx
      exact ⟨q, by simp [needsLink], by simp [argumentOk, hm], rfl, by simp [completedState, hn]⟩
    · rw [strobeSignal_rejects hm] at hx
      cases hx
  | reldata =>
    obtain ⟨a, hx, rfl⟩ := tail h
    obtain ⟨q, rfl⟩ := releaseData_ok hx
    exact ⟨q, by simp [needsLink], rfl, rfl, rfl⟩
  | rdshadow =>
    cases hv : s.shadowValid <;> simp [commandBody, hv] at h
    exact ⟨fun k hk => absurd hk (Nat.not_lt_zero k), by simp [needsLink], rfl, h.1.symm, h.2.symm⟩
  | linkinit b =>
    cases hn : speedOf b with
    | none => simp [commandBody, hn] at h
    | some n =>
      simp only [commandBody, hn] at h
      obtain ⟨a, hx, rfl⟩ := tail h
      obtain ⟨q, rfl⟩ := construct_ok hx
      refine ⟨q, by simp [needsLink], ?_, rfl, by simp [completedState, hn]⟩
      by_contra hb
      simp only [argumentOk, Bool.or_eq_true, beq_iff_eq, not_or] at hb
      simp [speedOf_eq_none.2 hb] at hn
  | linkinitd =>
    obtain ⟨n, u, hv, h⟩ := bind_eq_ok.1 h
    cases hv
    obtain ⟨a, hx, rfl⟩ := tail h
    obtain ⟨q, rfl⟩ := construct_ok hx
    exact ⟨q, by simp [needsLink], rfl, rfl, rfl⟩
  | datapresent =>
    obtain ⟨hl, h⟩ := linked h
    obtain ⟨a, hx, rfl⟩ := tail h
    obtain ⟨q, rfl, rfl⟩ := accessRead_ok hx
    exact ⟨q, fun _ => hl, rfl, rfl, rfl⟩
  | outputready =>
    obtain ⟨hl, h⟩ := linked h
    obtain ⟨a, hx, rfl⟩ := tail h
    obtain ⟨q, rfl, rfl⟩ := accessRead_ok hx
    exact ⟨q, fun _ => hl, rfl, rfl, rfl⟩
  | inten =>
    obtain ⟨hl, h⟩ := linked h
    obtain ⟨_, u, h1, h⟩ := bind_eq_ok.1 h
    obtain ⟨q1, rfl⟩ := accessWrite_ok h1
    obtain ⟨_, u, h2, h⟩ := bind_eq_ok.1 h
    obtain ⟨q2, rfl⟩ := accessWrite_ok h2
    obtain ⟨a, hx, rfl⟩ := tail h
    obtain ⟨q3, rfl⟩ := setSignals_ok hx
    exact ⟨(State.quiet_append (m := 9) (n := 11) (by simp)).2 ⟨q1,
      (State.quiet_append (m := 9) (n := 2) (by simp)).2 ⟨q2, q3⟩⟩, fun _ => hl, rfl, rfl, rfl⟩
  | intdis =>
    obtain ⟨hl, h⟩ := linked h
    obtain ⟨_, u, h1, h⟩ := bind_eq_ok.1 h
    obtain ⟨q1, rfl⟩ := accessWrite_ok h1
    obtain ⟨_, u, h2, h⟩ := bind_eq_ok.1 h
    obtain ⟨q2, rfl⟩ := accessWrite_ok h2
    obtain ⟨a, hx, rfl⟩ := tail h
    obtain ⟨q3, rfl⟩ := setSignals_ok hx
    exact ⟨(State.quiet_append (m := 9) (n := 11) (by simp)).2 ⟨q1,
      (State.quiet_append (m := 9) (n := 2) (by simp)).2 ⟨q2, q3⟩⟩, fun _ => hl, rfl, rfl, rfl⟩
  | write b =>
    obtain ⟨hl, h⟩ := linked h
    obtain ⟨_, u, h1, h⟩ := bind_eq_ok.1 h
    obtain ⟨q1, rfl⟩ := accessWrite_ok h1
    obtain ⟨a, hx, rfl⟩ := tail h
    obtain ⟨q3, rfl⟩ := setSignals_ok hx
    exact ⟨(State.quiet_append (m := 9) (n := 2) (by simp)).2 ⟨q1, q3⟩, fun _ => hl, rfl, rfl, rfl⟩
  | read =>
    obtain ⟨hl, h⟩ := linked h
    obtain ⟨a, hx, rfl⟩ := tail h
    obtain ⟨q, rfl, rfl⟩ := accessRead_ok hx
    exact ⟨q, fun _ => hl, rfl, rfl, rfl⟩
  | reset =>
    obtain ⟨hl, h⟩ := linked h
    obtain ⟨a, hx, rfl⟩ := tail h
    obtain ⟨q, rfl⟩ := pulse_ok hx
    exact ⟨q, fun _ => hl, rfl, rfl, rfl⟩
  | resetlvl l =>
    obtain ⟨hl, h⟩ := linked h
    obtain ⟨a, hx, rfl⟩ := tail h
    obtain ⟨q, rfl⟩ := setSignals_ok hx
    exact ⟨q, fun _ => hl, rfl, rfl, rfl⟩

/-- On a quiet bus, past its checks, a sequence completes with an OK response (RDSHADOW: while the shadow is valid). -/
theorem commandBody_quiet {i : Instr} {s : State} (q : s.quiet (transactionTable i).1)
    (hl : needsLink i = true → s.linkReady = true) (ha : argumentOk i = true)
    (hv : i = .rdshadow → s.shadowValid = true) :
    commandBody i s = .ok ⟨.ok, completedData s i⟩ (completedState s i) := by
  have tail {α : Type} {x : Op α} {a : α} {s u : State} (f : α → Byte) (hx : x s = .ok a u) :
      (x >>= fun a => respond .ok (f a)) s = .ok ⟨.ok, f a⟩ u := bind_eq_ok.2 ⟨a, u, hx, rfl⟩
  have linked {β : Type} {x : Op β} {s u : State} {r : β} (hr : s.linkReady = true) (hx : x s = .ok r u) :
      (requireLink >>= fun _ => x) s = .ok r u := bind_eq_ok.2 ⟨(), s, requireLink_ready hr, hx⟩
  cases i with
  | rddata => exact tail _ (readData_quiet q)
  | wrdata b => exact tail (fun _ => 0x00) (writeData_quiet q)
  | setsig m v => exact tail (fun _ => 0x00) (setSignals_quiet q)
  | strobe m =>
    obtain ⟨x, hn⟩ := popcount_one (by simpa [argumentOk] using ha)
    simp only [commandBody, completedState, hn, strobeSignal_named hn]
    exact tail (fun _ => 0x00) (strobeSignal_quiet q)
  | reldata => exact tail (fun _ => 0x00) (releaseData_quiet q)
  | rdshadow => simp [commandBody, hv rfl, completedData, completedState]
  | linkinit b =>
    cases hn : speedOf b with
    | none =>
      simp only [argumentOk, Bool.or_eq_true, beq_iff_eq] at ha
      have := speedOf_eq_none.1 hn
      tauto
    | some n =>
      simp only [commandBody, completedState, hn]
      exact tail (fun _ => 0x00) (construct_quiet q)
  | linkinitd => exact bind_eq_ok.2 ⟨_, _, rfl, tail (fun _ => 0x00) (construct_quiet q)⟩
  | datapresent => exact linked (hl rfl) (tail _ (accessRead_quiet q))
  | outputready => exact linked (hl rfl) (tail _ (accessRead_quiet q))
  | inten =>
    have q1 := (State.quiet_append (s := s) (t := s.afterAccessWrite .isrWr 0x02) (m := 9) (n := 11) (by simp)).1 q
    have q2 := (State.quiet_append (t := (s.afterAccessWrite .isrWr 0x02).afterAccessWrite .osrWr 0x02)
      (m := 9) (n := 2) (by simp)).1 q1.2
    exact linked (hl rfl) (bind_eq_ok.2 ⟨(), _, accessWrite_quiet q1.1, bind_eq_ok.2 ⟨(), _,
      accessWrite_quiet q2.1, tail (fun _ => 0x00) (setSignals_quiet q2.2)⟩⟩)
  | intdis =>
    have q1 := (State.quiet_append (s := s) (t := s.afterAccessWrite .isrWr 0x00) (m := 9) (n := 11) (by simp)).1 q
    have q2 := (State.quiet_append (t := (s.afterAccessWrite .isrWr 0x00).afterAccessWrite .osrWr 0x00)
      (m := 9) (n := 2) (by simp)).1 q1.2
    exact linked (hl rfl) (bind_eq_ok.2 ⟨(), _, accessWrite_quiet q1.1, bind_eq_ok.2 ⟨(), _,
      accessWrite_quiet q2.1, tail (fun _ => 0x00) (setSignals_quiet q2.2)⟩⟩)
  | write b =>
    have q1 := (State.quiet_append (s := s) (t := s.afterAccessWrite .odrWr b) (m := 9) (n := 2) (by simp)).1 q
    exact linked (hl rfl) (bind_eq_ok.2 ⟨(), _, accessWrite_quiet q1.1,
      tail (fun _ => 0x00) (setSignals_quiet q1.2)⟩)
  | read => exact linked (hl rfl) (tail _ (accessRead_quiet q))
  | reset => exact linked (hl rfl) (tail (fun _ => 0x00) (pulse_quiet q))
  | resetlvl l => exact linked (hl rfl) (tail (fun _ => 0x00) (setSignals_quiet q))

/-- No sequence raises OK as an error. -/
theorem commandBody_error {i : Instr} {s t : State} {e : Status} (h : commandBody i s = .error e t) :
    e = .transportError ∨ e = .notConstructed ∨ e = .invalidArgument := by
  let E : Status → State → State → Prop := fun e _ _ =>
    e = .transportError ∨ e = .notConstructed ∨ e = .invalidArgument
  have seq : Sequenced (fun _ _ => True) E := ⟨fun _ => trivial, fun _ _ _ _ _ => trivial, fun _ _ _ _ _ h => h⟩
  have hr (r : Reg) : Meets (fun _ _ => True) E (memRead r) := by
    intro s
    cases hf : (s.drawAt 0).fails
    · simp [memRead_quiet hf]
    · simp [memRead_fails hf, E]
  have hw (r : Reg) (v : Byte) : Meets (fun _ _ => True) E (memWrite r v) := by
    intro s
    cases hf : (s.drawAt 0).fails
    · simp [memWrite_quiet hf]
    · simp [memWrite_fails hf, E]
  have dir (v : Byte) (d : DataDir) : Meets (fun _ _ => True) E (writeDirection v d) :=
    .bind seq (hw _ _) fun _ _ => trivial
  have p : Primitives (fun _ _ => True) E :=
    { seq := seq
      readControl := hr _
      readPins := hr _
      control := fun _ => .bind seq (hw _ _) fun _ _ => trivial
      release := .bind seq (.view seq _) fun _ => dir _ _
      write := fun _ => .bind seq (.view seq _) fun _ => .bind seq (dir _ _) fun _ => hw _ _
      wait := fun _ => trivial
      construct := .construct seq (.setSignals seq (hr _) fun _ => .bind seq (hw _ _) fun _ _ => trivial)
        (fun _ _ => trivial) fun _ _ => trivial
      notConstructed := fun _ _ => .inr (.inl rfl)
      invalid := fun _ => .inr (.inr rfl) }
  have := p.body i s
  rw [h] at this
  exact this

/-- A command that answered OK met a quiet bus, passed its checks, and left the completed state. -/
theorem exec_answeredOk {i : Instr} {s t : State} (h : exec i s = .next t) (ok : AnsweredOk t) :
    s.quiet (transactionTable i).1 ∧ (needsLink i = true → s.linkReady = true) ∧ argumentOk i = true ∧
      t = (completedState s.start i).finish ⟨.ok, completedData s.start i⟩ := by
  rw [exec_eq] at h
  cases h
  obtain ⟨d, hd⟩ := ok
  cases hb : commandBody i s.start with
  | error e u =>
    rw [hb] at hd
    have := commandBody_error hb
    simp only [endCommand, State.finish_resp, errorResponse, Option.some.injEq, Response.mk.injEq] at hd
    simp [hd.1] at this
  | ok r u =>
    rw [hb] at hd
    simp only [endCommand, State.finish_resp, Option.some.injEq] at hd
    subst hd
    obtain ⟨q, l, a, rfl, rfl⟩ := commandBody_ok hb
    exact ⟨fun k hk => by simpa using q k hk, by simpa using l, a, rfl⟩

/-- On a quiet bus, past its checks, a command answers OK and leaves the completed state. -/
theorem exec_quiet {i : Instr} {s : State} (q : s.quiet (transactionTable i).1)
    (hl : needsLink i = true → s.linkReady = true) (ha : argumentOk i = true)
    (hv : i = .rdshadow → s.shadowValid = true) :
    exec i s = .next ((completedState s.start i).finish ⟨.ok, completedData s.start i⟩) := by
  rw [exec_eq, commandBody_quiet (fun k hk => by simpa using q k hk) (by simpa using hl) ha (by simpa using hv)]
  rfl

end Sys2Proof.Machine
end

