-- ==== Sys2Proof/Laws/Frames.lean ====
section
/-! SUPPORT. The rules for relations between the state before an operation and the state after it (frames and
invariants), the fields a failed write leaves, and the trace's completed writes. -/

namespace Sys2Proof.Machine

/-- The operation relates the state before it to the state after it, however it ends. -/
abbrev Both (R : State → State → Prop) {α : Type} (x : Op α) : Prop := Meets R (fun _ => R) x

/-! ### Frames -/

/-- A preorder sequences. -/
theorem seqBoth {R : State → State → Prop} (hr : ∀ s, R s s) (ht : ∀ s t u, R s t → R t u → R s u) :
    Sequenced R (fun _ => R) := ⟨hr, ht, fun _ => ht⟩

theorem both_read {R : State → State → Prop} (r : Reg) (h1 : ∀ s, R s (s.afterRead r))
    (h2 : ∀ s, R s (s.advance.record (s.board.failed r))) : Both R (memRead r) := by
  intro s
  cases hf : (s.drawAt 0).fails
  · rw [memRead_quiet hf]; exact h1 s
  · rw [memRead_fails hf]; exact h2 s

theorem both_write {R : State → State → Prop} (r : Reg) (v : Byte) (h1 : ∀ s, R s (s.completedWrite r v))
    (h2 : ∀ s, R s (s.failedWrite r v)) : Both R (memWrite r v) := by
  intro s
  cases hf : (s.drawAt 0).fails
  · rw [memWrite_quiet hf]; exact h1 s
  · rw [memWrite_fails hf]; exact h2 s

theorem both_control {R : State → State → Prop} (n : Byte) (h1 : ∀ s, R s (s.afterControl n))
    (h2 : ∀ s, R s (s.failedWrite .olatCtrl n)) : Both R (writeControl n) := by
  intro s
  cases hf : (s.drawAt 0).fails
  · rw [writeControl_quiet hf]; exact h1 s
  · simp only [writeControl, bind_run, memWrite_fails hf]; exact h2 s

theorem both_release {R : State → State → Prop} (h1 : ∀ s, R s s.afterRelease)
    (h2 : ∀ s, R s (s.failedWrite .dirData s.board.raw.dirAllIn)) : Both R releaseData := by
  intro s
  cases hf : (s.drawAt 0).fails
  · have q : s.quiet 1 := fun k hk => by
      obtain rfl : k = 0 := by omega
      exact hf
    rw [releaseData_quiet q]
    exact h1 s
  · simp only [releaseData, writeDirection, bind_run, viewState_run, memWrite_fails hf]; exact h2 s

theorem both_writeData {R : State → State → Prop} (ht : ∀ s t u, R s t → R t u → R s u) (b : Byte)
    (h1 : ∀ s, R s (s.afterDirection s.board.raw.dirAllOut .output))
    (h2 : ∀ s, R s (s.failedWrite .dirData s.board.raw.dirAllOut))
    (h3 : ∀ s, R s (s.completedWrite .olatData b)) (h4 : ∀ s, R s (s.failedWrite .olatData b)) :
    Both R (writeData b) := by
  intro s
  cases hf : (s.drawAt 0).fails
  · simp only [writeData, bind_run, viewState_run, writeDirection_quiet hf]
    have := both_write (R := R) .olatData b h3 h4 (s.afterDirection s.board.raw.dirAllOut .output)
    cases hm : memWrite .olatData b (s.afterDirection s.board.raw.dirAllOut .output) <;> rw [hm] at this
    · exact ht _ _ _ (h1 s) this
    · exact ht _ _ _ (h1 s) this
  · simp only [writeData, writeDirection, bind_run, viewState_run, memWrite_fails hf]; exact h2 s

/-! ### Writes in a trace, and what a failed write leaves -/

theorem writesTo_append (a : ExpAddr) (l k : List Event) :
    writesTo a (l ++ k) = writesTo a l ++ writesTo a k := by
  simp [writesTo]

@[simp] theorem writesTo_wr (b : Board) (r q : Reg) (v : Byte) :
    writesTo (b.addr r) [b.wr q v] = if r = q then [v] else [] := by
  have ha : (⟨(b.addr q).dev, (b.addr q).reg⟩ : ExpAddr) = b.addr q := rfl
  by_cases h : r = q
  · subst h; simp [writesTo, Event.writeTo?, Board.wr]
  · simp [writesTo, Event.writeTo?, Board.wr, ha, h, Ne.symm h]
@[simp] theorem writesTo_rd (b : Board) (r q : Reg) (v : Byte) : writesTo (b.addr r) [b.rd q v] = [] := by
  simp [writesTo, Event.writeTo?, Board.rd]
@[simp] theorem writesTo_failed (b : Board) (r q : Reg) : writesTo (b.addr r) [b.failed q] = [] := by
  simp [writesTo, Event.writeTo?, Board.failed]
@[simp] theorem writesTo_wait (b : Board) (r : Reg) (t) : writesTo (b.addr r) [.wait t] = [] := by
  simp [writesTo, Event.writeTo?]

@[simp] theorem State.failedWrite_trace (s : State) (r : Reg) (v : Byte) :
    (s.failedWrite r v).trace = s.trace ++ [s.board.failed r] := by
  unfold State.failedWrite
  cases (s.drawAt 0).lands <;> simp [Board.failed]
@[simp] theorem State.failedWrite_mem (s : State) (r : Reg) (v : Byte) :
    (s.failedWrite r v).mem = if (s.drawAt 0).lands then (s.store r v).mem else s.mem := by
  unfold State.failedWrite
  cases (s.drawAt 0).lands <;> simp
@[simp] theorem State.failedWrite_board (s : State) (r : Reg) (v : Byte) :
    (s.failedWrite r v).board = s.board := by
  unfold State.failedWrite
  cases (s.drawAt 0).lands <;> simp
@[simp] theorem State.failedWrite_shadow (s : State) (r : Reg) (v : Byte) :
    (s.failedWrite r v).shadow = s.shadow := by
  unfold State.failedWrite
  cases (s.drawAt 0).lands <;> simp
@[simp] theorem State.failedWrite_shadowValid (s : State) (r : Reg) (v : Byte) :
    (s.failedWrite r v).shadowValid = (s.shadowValid && r != .olatCtrl) := by
  unfold State.failedWrite
  cases (s.drawAt 0).lands <;> simp
@[simp] theorem State.failedWrite_dataDir (s : State) (r : Reg) (v : Byte) :
    (s.failedWrite r v).dataDir = if r = .dirData then .unknown else s.dataDir := by
  unfold State.failedWrite
  cases (s.drawAt 0).lands <;> simp
@[simp] theorem State.failedWrite_linkReady (s : State) (r : Reg) (v : Byte) :
    (s.failedWrite r v).linkReady = s.linkReady := by
  unfold State.failedWrite
  cases (s.drawAt 0).lands <;> simp
@[simp] theorem State.failedWrite_linkSpeed (s : State) (r : Reg) (v : Byte) :
    (s.failedWrite r v).linkSpeed = s.linkSpeed := by
  unfold State.failedWrite
  cases (s.drawAt 0).lands <;> simp
@[simp] theorem State.failedWrite_responses (s : State) (r : Reg) (v : Byte) :
    (s.failedWrite r v).responses = s.responses := by
  unfold State.failedWrite
  cases (s.drawAt 0).lands <;> simp
@[simp] theorem State.failedWrite_pending (s : State) (r : Reg) (v : Byte) :
    (s.failedWrite r v).pending = s.pending := by
  unfold State.failedWrite
  cases (s.drawAt 0).lands <;> simp

theorem State.afterControl_mem (s : State) (n) : (s.afterControl n).mem = (s.store .olatCtrl n).mem := rfl
theorem State.afterDirection_mem (s : State) (v d) :
    (s.afterDirection v d).mem = (s.store .dirData v).mem := rfl
theorem State.completedWrite_mem (s : State) (r v) : (s.completedWrite r v).mem = (s.store r v).mem := rfl
theorem State.afterRelease_mem (s : State) :
    s.afterRelease.mem = (s.store .dirData s.board.raw.dirAllIn).mem := rfl

theorem State.read_store_other (s : State) {r q : Reg} (v : Byte) (h : q ≠ r) :
    Memory.read (s.store r v).mem (s.board.addr q).key = Memory.read s.mem (s.board.addr q).key :=
  Memory.read_write_other _ _ (fun hk => h (s.board.key_injective hk))
@[simp] theorem State.read_store_same (s : State) (r : Reg) (v : Byte) :
    Memory.read (s.store r v).mem (s.board.addr r).key = some v := Memory.read_write_same _ _ _

/-! ### Registers, levels and the contention flag across the ends of a command -/

/-- A register after a failed write of it holds the old value or the new one (R206). -/
theorem State.failedWrite_expReg (s : State) (r : Reg) (v : Byte) :
    (s.failedWrite r v).expReg r = if (s.drawAt 0).lands then v else s.expReg r := by
  simp only [State.expReg, State.failedWrite_mem, State.failedWrite_board]
  cases (s.drawAt 0).lands <;> simp

theorem State.failedWrite_expReg_other (s : State) {r q : Reg} (v : Byte) (h : q ≠ r) :
    (s.failedWrite r v).expReg q = s.expReg q := by
  simp only [State.expReg, State.failedWrite_mem, State.failedWrite_board]
  cases (s.drawAt 0).lands
  · simp
  · simp only [if_true]
    rw [State.read_store_other _ _ h]

/-- A command that ends with the state u, and how u differs from the start, in the form claims use. -/
theorem ended_finish {s u : State} {r : Response} {l : List Event} (hb : u.board = s.board)
    (hp : u.pending = s.pending) (hr : u.responses = s.responses) (ht : u.trace = s.trace ++ l) :
    Ended s (u.finish r) r l :=
  ⟨by simpa using ht, rfl, by simp [hr], ⟨rfl, rfl⟩, hb, hp⟩

/-- The events of a command whose trace grew by l. -/
theorem newEvents_finish {s u : State} (r : Response) {l : List Event} (h : u.trace = s.trace ++ l) :
    newEvents s (u.finish r) = l := by simp [newEvents, h]

/-- A completed control-latch write flags the run exactly where its word asserts chip select for a read. -/
theorem State.afterControl_contention (s : State) (n : Byte) : (s.afterControl n).contention =
    (s.contention || (!n.getLsbD (s.board.sig .csn) && n.getLsbD (s.board.sig .rnw) && s.dataDir != .input)) := by
  change (s.contention || _) = _
  congr 1
  simp [State.contending, State.level, -BitVec.getLsbD_eq_getElem]

theorem State.afterDirection_contention (s : State) (v : Byte) (d : DataDir) :
    (s.afterDirection v d).contention = (s.contention || (!s.level .csn && s.level .rnw && d != .input)) := by
  change (s.contention || _) = _
  congr 1
  simp [State.contending, State.level, -BitVec.getLsbD_eq_getElem]

end Sys2Proof.Machine
end

