-- ==== Sys2Proof/Laws/PerInstr.lean ====
section
/-! SUPPORT. A statement about every command as syntax, one lemma per constructor: its word is accepted by the
row of the opcode table that carries its mnemonic (30_encoding.md R97, R102). -/

namespace Sys2Proof.Laws.EncodesItsRow

def Statement (i : Instr) : Prop := ∃ r ∈ opcodeTable, r.mnemonic = mnemonic i ∧ r.accepts (encode i) = true

/-- A packed word is accepted by a row whose mask and pattern have matching fields. -/
theorem accepts_pack (r : OpRow) {op : BitVec 4} {m v b : Byte}
    (h : op &&& opField r.mask = opField r.pattern ∧ 0 = subField r.pattern ∧
      m &&& maskField r.mask = maskField r.pattern ∧ v &&& valueField r.mask = valueField r.pattern ∧
      b &&& byteField r.mask = byteField r.pattern) :
    r.accepts (packWord op m v b) = true :=
  (accepts_iff _ r).2 (by simpa using h)

theorem rddata : Statement .rddata := ⟨opcodeTable[0], by decide, rfl, by decide⟩
theorem wrdata (b : Byte) : Statement (.wrdata b) :=
  ⟨opcodeTable[1], by decide, rfl, accepts_pack _ (by decide +revert)⟩
theorem setsig (m v : Byte) : Statement (.setsig m v) :=
  ⟨opcodeTable[2], by decide, rfl, accepts_pack _ ⟨by decide, by decide, by decide +revert, by decide +revert,
    by decide⟩⟩
theorem strobe (m : Byte) : Statement (.strobe m) :=
  ⟨opcodeTable[3], by decide, rfl, accepts_pack _ (by decide +revert)⟩
theorem reldata : Statement .reldata := ⟨opcodeTable[4], by decide, rfl, by decide⟩
theorem rdshadow : Statement .rdshadow := ⟨opcodeTable[5], by decide, rfl, by decide⟩
theorem linkinit (b : Byte) : Statement (.linkinit b) :=
  ⟨opcodeTable[6], by decide, rfl, accepts_pack _ (by decide +revert)⟩
theorem linkinitd : Statement .linkinitd := ⟨opcodeTable[7], by decide, rfl, by decide⟩
theorem datapresent : Statement .datapresent := ⟨opcodeTable[8], by decide, rfl, by decide⟩
theorem outputready : Statement .outputready := ⟨opcodeTable[9], by decide, rfl, by decide⟩
theorem inten : Statement .inten := ⟨opcodeTable[10], by decide, rfl, by decide⟩
theorem intdis : Statement .intdis := ⟨opcodeTable[11], by decide, rfl, by decide⟩
theorem write (b : Byte) : Statement (.write b) :=
  ⟨opcodeTable[12], by decide, rfl, accepts_pack _ (by decide +revert)⟩
theorem read : Statement .read := ⟨opcodeTable[13], by decide, rfl, by decide⟩
theorem reset : Statement .reset := ⟨opcodeTable[14], by decide, rfl, by decide⟩
theorem resetlvl (l : Bool) : Statement (.resetlvl l) :=
  ⟨opcodeTable[15], by decide, rfl, by cases l <;> decide⟩

end Sys2Proof.Laws.EncodesItsRow
end

