-- ==== Sys2Proof/Tests/Slice0.lean ====
section
/-! SUPPORT. Tests of one step on small states, and for every obligation with hypotheses a state and operands
that meet them. Expected values come from 95_test_vectors.md (the id stands in each test's docstring) and from the
encoding rules R90 to R102; every configuration value is the default those vectors name. -/

set_option maxRecDepth 8000

namespace Sys2Proof.Tests

open Sys2Proof.Machine

/-! ### The bench -/

/-- The configuration of the test vectors. -/
def lab : Board := { raw := .standard, ok := by decide }

/-- The same with the reversed SignalMap of V-SS-8 and V-ST-7. -/
def labReversed : Board :=
  { raw := { Params.standard with sigmapA := ⟨7, 6, 5, 4, 3, 2, 1, 0⟩ }, ok := by decide }

/-- A transaction that completes, the pins reading v; one that fails with the old value kept; one that fails with
the new value landed. -/
def done (v : Byte) : BusDraw := ⟨false, false, v⟩

@[inherit_doc done]
def lost : BusDraw := ⟨true, false, 0⟩

@[inherit_doc done]
def landed : BusDraw := ⟨true, true, 0⟩

/-- n transactions that complete. -/
def calm (n : Nat) : List BusDraw := List.replicate n (done 0)

/-- The latch at c, the Link constructed at 20, the data port an input, and these answers to come. -/
def bench (c : Byte) (draws : List BusDraw) : State :=
  { State.reset with
    board := lab, draws := draws, shadow := c, shadowValid := true, linkReady := true,
    linkSpeed := some .mbit20, dataDir := .input, trace := [lab.wr .olatCtrl c],
    mem := [((lab.addr .dirData).key, lab.raw.dirAllIn), ((lab.addr .olatCtrl).key, c)] }

/-- The bench without a Link. -/
def bare (c : Byte) (draws : List BusDraw) : State :=
  { bench c draws with linkReady := false, linkSpeed := none, shadowValid := false, dataDir := .unknown }

/-- The state a command leaves. -/
def after (i : Instr) (s : State) : State :=
  match exec i s with
  | .next t => t
  | _ => s

theorem exec_after (i : Instr) (s : State) : exec i s = .next (after i s) := by
  unfold after
  rw [exec_eq]

/-- The events of a command. -/
def events (i : Instr) (s : State) : List Event := newEvents s (after i s)

/-- The response word of the last response. -/
def answer (t : State) : Option RespWord := t.resp.map responseWord

abbrev rdC (v : Byte) : Event := lab.rd .olatCtrl v
abbrev wrC (v : Byte) : Event := lab.wr .olatCtrl v
abbrev wrDD (v : Byte) : Event := lab.wr .dirData v
abbrev wrDL (v : Byte) : Event := lab.wr .olatData v
abbrev rdDI (v : Byte) : Event := lab.rd .inData v

/-! ### Decoding: words written out from R90 and R91, and the illegal words of section 2.1 -/

theorem test_decode_rddata : decode 0b0000_0000_00000000_00000000_00000000 = .ok .rddata := by decide
theorem test_decode_wrdata : decode 0b0001_0000_00000000_00000000_10101011 = .ok (.wrdata 0xAB) := by decide
theorem test_decode_setsig : decode 0b0010_0000_01000001_00000001_00000000 = .ok (.setsig 0x41 0x01) := by decide
theorem test_decode_strobe : decode 0b0011_0000_10000000_00000000_00000000 = .ok (.strobe 0x80) := by decide
theorem test_decode_reldata : decode 0b0100_0000_00000000_00000000_00000000 = .ok .reldata := by decide
theorem test_decode_rdshadow : decode 0b0101_0000_00000000_00000000_00000000 = .ok .rdshadow := by decide
theorem test_decode_linkinit : decode 0b0110_0000_00000000_00000000_00010100 = .ok (.linkinit 20) := by decide
theorem test_decode_linkinitd : decode 0b0111_0000_00000000_00000000_00000000 = .ok .linkinitd := by decide
theorem test_decode_datapresent : decode 0b1000_0000_00000000_00000000_00000000 = .ok .datapresent := by decide
theorem test_decode_outputready : decode 0b1001_0000_00000000_00000000_00000000 = .ok .outputready := by decide
theorem test_decode_inten : decode 0b1010_0000_00000000_00000000_00000000 = .ok .inten := by decide
theorem test_decode_intdis : decode 0b1011_0000_00000000_00000000_00000000 = .ok .intdis := by decide
theorem test_decode_write : decode 0b1100_0000_00000000_00000000_01010101 = .ok (.write 0x55) := by decide
theorem test_decode_read : decode 0b1101_0000_00000000_00000000_00000000 = .ok .read := by decide
theorem test_decode_reset : decode 0b1110_0000_00000000_00000000_00000000 = .ok .reset := by decide
theorem test_decode_resetlvl :
    decode 0b1111_0000_00000000_00000000_00000001 = .ok (.resetlvl true) ∧
    decode 0b1111_0000_00000000_00000000_00000000 = .ok (.resetlvl false) := by decide

/-- V-DEC-1 to V-DEC-3, V-DEC-5 to V-DEC-11: none of these words is legal. -/
theorem test_decode_illegal :
    ∀ w ∈ [0x00000001, 0x200000FF, 0xF0000002, 0x61000014, 0x30000100, 0x50000001, 0x100001AB, 0x80000001,
      0x6100000F, 0x30030001], decodeTableWord 32 w = none := by decide

/-- V-DEC-4: V bits outside M are ignored, so the word is legal. -/
theorem test_decode_ignored_levels : decode 0x2000FF00 = .ok (.setsig 0x00 0xFF) := by decide

/-- A word placed as the next command is the one the step runs: V-DEC-1 answers 0x0500 with an empty trace. -/
theorem test_step_illegal :
    (match step (State.reset.withFetchWord 32 0x00000001) with
      | .next t => (answer t, t.trace)
      | _ => (none, [])) = (some 0x0500, []) := by decide

/-- The rows of the opcode table do not overlap. -/
theorem test_rows_disjoint :
    opcodeTable.Pairwise fun r q => r.pattern &&& (r.mask &&& q.mask) ≠ q.pattern &&& (r.mask &&& q.mask) := by
  decide

/-! ### Well-formedness: each check refuses an ill-formed term (R6, R25, R100) -/

theorem test_wf_byte : (Source.write 256).wf = false ∧ (Source.linkinit 300).wf = false ∧
    (Source.wrdata 256).wf = false ∧ (Source.write 255).wf = true := by decide
theorem test_wf_level : (Source.resetlvl 2).wf = false ∧ (Source.resetlvl 1).wf = true := by decide
theorem test_wf_setsig_level : (Source.setsig [(.csn, 2)]).wf = false := by decide
theorem test_wf_setsig_name_twice : (Source.setsig [(.csn, 0), (.rst, 1), (.csn, 0)]).wf = false := by decide
theorem test_wf_setsig_empty : (Source.setsig []).wf = true := by decide
theorem test_assemble_illformed : assemble (.write 256) = none := by decide

/-- R100, R101: the examples of R100, and PULSE as two STROBEs. -/
theorem test_assemble_examples :
    assemble (.setsig [(.rst, 1)]) = some [0x20010100] ∧ assemble (.setsig [(.csn, 0)]) = some [0x20020000] ∧
    assemble (.pulse .csn) = some [0x30020000, 0x30020000] ∧ assemble .nop = some [0x50000000] := by decide

/-- R25: two signals on one bit. -/
theorem test_wf_map_not_injective :
    ({ Params.standard with sigmapA := ⟨0, 0, 2, 3, 4, 5, 6, 7⟩ }).mapsOk = false ∧
    ({ Params.standard with sigmapB := ⟨0, 1, 2, 3, 4, 5, 6, 6⟩ }).mapsOk = false := by decide
theorem test_wf_devices : ({ Params.standard with devCtrl := 0x21 }).devicesOk = false ∧
    ({ Params.standard with variant := .b }).devicesOk = false ∧
    ({ Params.standard with variant := .b, devCtrl := 0x21 }).wf = true := by decide
theorem test_wf_addresses : ({ Params.standard with regInData := 0x14 }).addressesOk = false := by decide
theorem test_wf_directions : ({ Params.standard with dirAllOut := 0xFF }).directionsOk = false := by decide
theorem test_wf_hold : ({ Params.standard with strobeHold := 0 }).holdOk = false := by decide

/-- R25: an ill-formed configuration makes no board. -/
theorem test_board_refused :
    (Board.check { Params.standard with strobeHold := 0 }).isNone = true ∧
    (Board.check Params.standard).isSome = true := by decide

/-! ### One step of each command -/

/-- V-DP0-1. -/
theorem test_rddata : events .rddata (bench 0x42 [done 0, done 0x5C]) = [wrDD 0xFF, rdDI 0x5C] ∧
    answer (after .rddata (bench 0x42 [done 0, done 0x5C])) = some 0x005C := by decide

/-- V-TE-3 and V-TE-4. -/
theorem test_rddata_fails :
    events .rddata (bare 0x42 [lost]) = [lab.failed .dirData] ∧
    (after .rddata (bare 0x42 [lost])).dataDir = .unknown ∧
    events .rddata (bare 0x42 [done 0, lost]) = [wrDD 0xFF, lab.failed .inData] ∧
    (after .rddata (bare 0x42 [done 0, lost])).dataDir = .input ∧
    answer (after .rddata (bare 0x42 [done 0, lost])) = some 0x0300 := by decide

/-- V-DP0-2. -/
theorem test_wrdata : events (.wrdata 0xAB) (bench 0x42 (calm 2)) = [wrDD 0x00, wrDL 0xAB] ∧
    (after (.wrdata 0xAB) (bench 0x42 (calm 2))).dataDir = .output := by decide

/-- V-SS-4 and L1-1. -/
theorem test_setsig :
    events (.setsig 0x01 0x01) (bare 0x10 (calm 2)) = [rdC 0x10, wrC 0x11] ∧
    events (.setsig 0x41 0x01) (bench 0x5A (calm 2)) = [rdC 0x5A, wrC 0x1B] ∧
    (after (.setsig 0x41 0x01) (bench 0x5A (calm 2))).shadow = 0x1B := by decide

/-- V-SS-8 (the map gives the bit), and V-TE-2 with both of its draws. -/
theorem test_setsig_map_and_failure :
    (after (.setsig 0x01 0x01) { bench 0x00 (calm 2) with board := labReversed }).shadow = 0x80 ∧
    (after (.setsig 0x01 0x01) (bench 0x00 [done 0, lost])).shadowValid = false ∧
    (after (.setsig 0x01 0x01) (bench 0x00 [done 0, lost])).latch = 0x00 ∧
    (after (.setsig 0x01 0x01) (bench 0x00 [done 0, landed])).latch = 0x01 := by decide

/-- V-ST-5. -/
theorem test_strobe : events (.strobe 0x80) (bench 0x42 (calm 2)) = [rdC 0x42, wrC 0xC2, lab.hold] ∧
    (after (.strobe 0x80) (bench 0x42 (calm 2))).shadow = 0xC2 := by decide

/-- V-ST-3 and V-ST-4, then V-TE-6 (no Wait). -/
theorem test_strobe_rejects :
    answer (after (.strobe 0x06) (bench 0x42 [])) = some 0x0100 ∧ events (.strobe 0x00) (bench 0x42 []) = [] ∧
    events (.strobe 0x01) (bench 0x42 [done 0, lost]) = [rdC 0x42, lab.failed .olatCtrl] := by decide

/-- V-DP0-4 and V-TE-5. -/
theorem test_reldata : events .reldata (bench 0x42 (calm 1)) = [wrDD 0xFF] ∧
    (after .reldata (bench 0x42 [lost])).dataDir = .unknown := by decide

/-- V-RS-1 and V-RS-2. -/
theorem test_rdshadow : answer (after .rdshadow State.reset) = some 0x0600 ∧
    answer (after .rdshadow (after (.setsig 0x01 0x01) (bench 0x00 (calm 2)))) = some 0x0001 := by decide

/-- V-LI-2. -/
theorem test_linkinit : events (.linkinit 20) (bare 0x00 (calm 8)) =
      [rdC 0x00, wrC 0x01, rdC 0x01, wrC 0x03, rdC 0x03, wrC 0x43, rdC 0x43, wrC 0x42] ∧
    (after (.linkinit 20) (bare 0x00 (calm 8))).linkReady = true ∧
    (after (.linkinit 20) (bare 0x00 (calm 8))).linkSpeed = some .mbit20 := by decide

/-- V-LI-9, and V-TE-7. -/
theorem test_linkinit_fails :
    (after (.linkinit 21) (bench 0x02 [])).linkReady = true ∧
    answer (after (.linkinit 21) (bench 0x02 [])) = some 0x0100 ∧
    events (.linkinit 20) (bare 0x00 [done 0, done 0, lost]) = [rdC 0x00, wrC 0x01, lab.failed .olatCtrl] ∧
    (after (.linkinit 20) (bare 0x00 [done 0, done 0, lost])).shadow = 0x01 := by decide

/-- V-LI-6. -/
theorem test_linkinitd : events .linkinitd (bare 0x00 (calm 8)) =
      [rdC 0x00, wrC 0x01, rdC 0x01, wrC 0x03, rdC 0x03, wrC 0x03, rdC 0x03, wrC 0x02] ∧
    (after .linkinitd (bare 0x00 (calm 8))).linkSpeed = some .mbit10 := by decide

/-- V-DP-3. -/
theorem test_datapresent : events .datapresent (bench 0x42 (calm 5 ++ [done 0xFE] ++ calm 2)) =
      [rdC 0x42, wrC 0x7A, rdC 0x7A, wrC 0x78, wrDD 0xFF, rdDI 0xFE, rdC 0x78, wrC 0x5A] ∧
    answer (after .datapresent (bench 0x42 (calm 5 ++ [done 0xFE] ++ calm 2))) = some 0x0000 := by decide

/-- V-TE-8. -/
theorem test_datapresent_fails :
    (after .datapresent (bench 0x42 (calm 4 ++ [lost]))).shadow = 0x78 ∧
    (after .datapresent (bench 0x42 (calm 4 ++ [lost]))).dataDir = .unknown ∧
    (after .datapresent (bench 0x42 (calm 4 ++ [lost]))).linkReady = true := by decide

/-- V-OR-2. -/
theorem test_outputready : events .outputready (bench 0x42 (calm 5 ++ [done 0x01] ++ calm 2)) =
      [rdC 0x42, wrC 0x7E, rdC 0x7E, wrC 0x7C, wrDD 0xFF, rdDI 0x01, rdC 0x7C, wrC 0x5E] ∧
    answer (after .outputready (bench 0x42 (calm 5 ++ [done 0x01] ++ calm 2))) = some 0x0001 := by decide

/-- V-IE-1 (the trace of L1-6). -/
theorem test_inten : events .inten (bench 0x42 (calm 20)) =
    [rdC 0x42, wrC 0x6A, wrDD 0x00, wrDL 0x02, rdC 0x6A, wrC 0x68, lab.hold, rdC 0x68, wrC 0x6A, lab.hold,
      wrDD 0xFF] ++
    [rdC 0x6A, wrC 0x6E, wrDD 0x00, wrDL 0x02, rdC 0x6E, wrC 0x6C, lab.hold, rdC 0x6C, wrC 0x6E, lab.hold,
      wrDD 0xFF, rdC 0x6E, wrC 0x4E] := by decide

/-- V-ID-1. -/
theorem test_intdis : writesTo (lab.addr .olatData) (events .intdis (bench 0x42 (calm 20))) = [0x00, 0x00] ∧
    (after .intdis (bench 0x42 (calm 20))).shadow = 0x4E := by decide

/-- V-WR-1 (the trace of L1-5). -/
theorem test_write : events (.write 0xAB) (bench 0x42 (calm 11)) =
    [rdC 0x42, wrC 0x46, wrDD 0x00, wrDL 0xAB, rdC 0x46, wrC 0x44, lab.hold, rdC 0x44, wrC 0x46, lab.hold,
      wrDD 0xFF, rdC 0x46, wrC 0x46] := by decide

/-- V-WR-2 (chip select left asserted) and V-TE-9. -/
theorem test_write_hazards :
    (after (.write 0x11) (bench 0x40 (calm 11))).shadow = 0x44 ∧
    (after (.write 0xAB) (bench 0x42 (calm 5 ++ [lost]))).dataDir = .output ∧
    (after (.write 0xAB) (bench 0x42 (calm 5 ++ [lost]))).shadowValid = false := by decide

/-- V-RD-1. -/
theorem test_read : events .read (bench 0x46 (calm 5 ++ [done 0x3C] ++ calm 2)) =
      [rdC 0x46, wrC 0x52, rdC 0x52, wrC 0x50, wrDD 0xFF, rdDI 0x3C, rdC 0x50, wrC 0x52] ∧
    answer (after .read (bench 0x46 (calm 5 ++ [done 0x3C] ++ calm 2))) = some 0x003C := by decide

/-- V-TE-10: the byte read is not returned. -/
theorem test_read_fails :
    answer (after .read (bench 0x42 (calm 5 ++ [done 0x55, lost]))) = some 0x0300 ∧
    (after .read (bench 0x42 (calm 5 ++ [done 0x55, lost]))).shadow = 0x50 := by decide

/-- V-RE-1. -/
theorem test_reset : events .reset (bench 0x42 (calm 4)) =
    [rdC 0x42, wrC 0xC2, lab.hold, rdC 0xC2, wrC 0x42, lab.hold] := by decide

/-- V-RE-2 and V-RE-4. -/
theorem test_resetlvl : events (.resetlvl true) (bench 0x42 (calm 2)) = [rdC 0x42, wrC 0xC2] ∧
    events (.resetlvl false) (bench 0xC2 (calm 2)) = [rdC 0xC2, wrC 0x42] := by decide

/-- Section 2.11: without a Link each of these answers 0x0400 with an empty trace. -/
theorem test_not_constructed :
    ∀ i ∈ [Instr.datapresent, .outputready, .inten, .intdis, .write 0x01, .read, .reset, .resetlvl true],
      answer (after i (bare 0x00 [])) = some 0x0400 ∧ events i (bare 0x00 []) = [] := by decide

/-! ### The adapter reference model (R70) -/

/-- A view of the adapter with these pins. -/
def pinned (control direction latch : Byte) : AdapterView :=
  { adapterAt (bench 0x42 []) with control := some control, direction := some direction, latch := some latch }

/-- The end state of P1: the adapter has taken 0x55. -/
theorem test_adapter_takes_byte :
    (adapterRun lab (adapterAt (bench 0x5E [])) (events (.write 0x55) (bench 0x5E (calm 11)))).sent = [some 0x55] := by
  decide

/-- I12, I5 and R27: an output write with the data port an input hands over any byte; what an input data register
write (RS1, RS0 and RNW all 0) does is not known; an output data register read (RNW 1) hands nothing over. -/
theorem test_adapter_open_accesses :
    (adapterRun lab (pinned 0x44 0xFF 0xAB) [wrC 0x46]).sent = [none] ∧
    (adapterRun lab (pinned 0x00 0x00 0xAB) [wrC 0x02]).inputStatus.written = true ∧
    (adapterRun lab (pinned 0x00 0x00 0xAB) [wrC 0x02]).certain = false ∧
    (adapterRun lab (pinned 0x14 0x00 0xAB) [wrC 0x16]) = pinned 0x16 0x00 0xAB := by decide

/-- P2 steps 1 and 1': with a byte waiting the ISR (control word 0x78) answers 0x03 and not 0x00; after a status
write, and under contention, any byte (R70, I3, I11). -/
theorem test_adapter_status_answers :
    adapterAnswers lab (pinned 0x78 0xFF 0) ⟨true, false⟩ 0x03 = true ∧
    adapterAnswers lab (pinned 0x78 0xFF 0) ⟨true, false⟩ 0x00 = false ∧
    adapterAnswers lab { pinned 0x78 0xFF 0 with inputStatus := .ofWrite (some 0x02) } ⟨true, false⟩ 0x00 = true ∧
    adapterAnswers lab (pinned 0x78 0x00 0) ⟨true, false⟩ 0x00 = true := by decide

/-- R206, R62: INTEN's write that raises CSN fails after the ISR's byte was driven. Where the latch then reads 0x6A
the ISR has been written, where it reads 0x68 it has not. -/
theorem test_adapter_failed_write :
    (adapterRun lab (adapterAt (bench 0x42 []))
      (events .inten (bench 0x42 (calm 7 ++ [landed])) ++ [rdC 0x6A])).inputStatus = ⟨some true, true⟩ ∧
    (adapterRun lab (adapterAt (bench 0x42 []))
      (events .inten (bench 0x42 (calm 7 ++ [lost])) ++ [rdC 0x68])).inputStatus = ⟨none, false⟩ := by decide

/-- R206: two SETSIGs whose latch reads fail change nothing the adapter has. -/
theorem test_adapter_failed_reads :
    adapterRun lab (pinned 0x42 0xFF 0)
      (events (.setsig 1 1) (bench 0x42 [lost]) ++ events (.setsig 1 1) (bench 0x42 [lost])) =
      pinned 0x42 0xFF 0 := by decide

/-! ### Witnesses: for each obligation with hypotheses, a state and operands that meet them -/

/-- A bench state meets the invariant, with a valid shadow, a constructed Link and `DATA_DIR = IN`. -/
theorem bench_inv (c : Byte) (draws : List BusDraw) : (bench c draws).Inv where
  memWf := ⟨by simp [bench, lab, Board.addr, Params.addr, Params.standard, ExpAddr.key],
    by simp [bench, lab, Board.addr, Params.addr, Params.standard, ExpAddr.key, addressLimit]⟩
  memKeys := by simp [bench]
  shadowLatch _ := by simp [bench, Memory.read]
  shadowTrace _ := by simp [bench, writesTo, Event.writeTo?, Board.wr]
  dirInput _ := by simp [bench, Memory.read]
  dirOutput h := by simp [bench] at h
  linkSpeed _ := by simp [bench]
  idle := ⟨rfl, rfl⟩
  lastResp := rfl

/-- The same with `DATA_DIR = OUT`. -/
def driving : State :=
  { bench 0x42 [] with
    dataDir := .output,
    mem := [((lab.addr .dirData).key, lab.raw.dirAllOut), ((lab.addr .olatCtrl).key, 0x42)] }

theorem test_witness_StepKeepsInvariant :
    (∃ s t, s.Inv ∧ s.shadowValid = true ∧ s.linkReady = true ∧ s.dataDir = .input ∧ step s = .next t) ∧
    (∃ s t, s.Inv ∧ s.dataDir = .output ∧ step s = .next t) :=
  ⟨⟨bench 0x42 [], bench 0x42 [], bench_inv _ _, rfl, rfl, rfl, rfl⟩,
    ⟨driving, driving,
      { memWf := ⟨by decide, by decide⟩, memKeys := by decide, shadowLatch := fun _ => by decide,
        shadowTrace := fun _ => by decide, dirInput := fun h => by simp [driving] at h,
        dirOutput := fun _ => by decide, linkSpeed := fun _ => by simp [driving, bench], idle := ⟨rfl, rfl⟩,
        lastResp := rfl }, rfl, rfl⟩⟩

/-- An idle bench with one command issued. -/
def issued (w : CmdWord) : State := { bench 0x42 (calm 20) with pending := [w] }

theorem test_witness_StepRunsDecodedCommand :
    (issued 0xA0000000).busy = false ∧ (issued 0xA0000000).pending = [0xA0000000] ∧
      decode 0xA0000000 = .ok .inten := by decide

theorem test_witness_BusyOrIdleBlockHoldsState :
    ({ issued 0xA0000000 with busy := true } : State).busy = true ∧ State.reset.pending = [] := by decide

theorem test_witness_ChecksComeInOrder :
    (issued 0x61000014).busy = false ∧ decode 0x61000014 = .error .subNotZero ∧
    (needsLink .read = true ∧ (bare 0 []).linkReady = false) ∧
    (∀ b ∈ [0, 9, 11, 19, 21, 255], argumentOk (.linkinit b) = false) ∧
    (∀ b ∈ [10, 20], argumentOk (.linkinit b) = true) ∧
    (∀ m ∈ [0x00, 0x03, 0x81, 0xFF], argumentOk (.strobe m) = false) ∧
    (∀ m ∈ [0x01, 0x80], argumentOk (.strobe m) = true) ∧
    (needsLink (.write 0) = true ∧ (issued 0xC0000000).linkReady = true ∧ argumentOk (.write 0) = true) ∧
    (needsLink .rdshadow = false ∧ argumentOk .rdshadow = true ∧ (bare 0 []).shadowValid = false) := by decide

theorem test_witness_TransportFailureEndsCommand :
    ((bench 0x42 [lost]).drawAt 0).fails = true ∧ ((bench 0x42 [landed]).drawAt 0).lands = true ∧
    (∃ t, memRead .olatCtrl (bench 0x42 [lost]) = .error .transportError t) ∧
    (∃ t, commandBody .rddata (bench 0x42 [lost]).start = .error .transportError t) ∧
    (∃ t before e after, exec .rddata (bench 0x42 [done 0, lost]) = .next t ∧
      newEvents (bench 0x42 [done 0, lost]) t = before ++ e :: after ∧ e.isFail = true) :=
  ⟨by decide, by decide, ⟨_, rfl⟩, ⟨_, rfl⟩, _, [wrDD 0xFF], lab.failed .inData, [], exec_after _ _, by decide, by decide⟩

theorem test_witness_EveryCommandEndsWithOneResponse :
    (after (.strobe 0) (bench 0 [])).resp = some ⟨.invalidArgument, 0x00⟩ ∧
      Status.invalidArgument.isError = true := by decide

/-- A step of the block that performs a transaction. -/
theorem issued_step : step (issued 0x40000000) = .next (after .reldata ((issued 0x40000000).takeCommand [])) :=
  (by rfl : step (issued 0x40000000) = exec .reldata ((issued 0x40000000).takeCommand [])).trans (exec_after _ _)

theorem test_witness_StepOnlyExtendsRecord :
    (∃ s t, step s = .next t ∧ s.responses ≠ t.responses) ∧ ∃ s t, step s = .next t ∧ s.contention = true :=
  ⟨⟨_, _, issued_step, by decide⟩, { State.reset with contention := true }, _, rfl, rfl⟩

theorem test_witness_OnlyNamedRegistersAccessed : ∃ s t e, step s = .next t ∧ e ∈ newEvents s t :=
  ⟨_, _, wrDD 0xFF, issued_step, by decide⟩

theorem test_witness_EveryControlBitCarriesOneSignal :
    Signal.rst ≠ .csn ∧
      ({ Params.standard with sigmapA := ⟨0, 0, 2, 3, 4, 5, 6, 7⟩ } : Params).sigmap.bitOf .rst =
        ({ Params.standard with sigmapA := ⟨0, 0, 2, 3, 4, 5, 6, 7⟩ } : Params).sigmap.bitOf .csn := by decide

theorem test_witness_EncodeOfDecode : decode 0xF0000001 = .ok (.resetlvl true) := by decide

theorem test_witness_LegalWordsAreTableRows :
    (∃ r ∈ opcodeTable, r.accepts 0xF0000001 = true) ∧ decode 0xF0000001 = .ok (.resetlvl true) ∧
    (issued 0xF0000002).pending = [0xF0000002] ∧ (∀ r ∈ opcodeTable, r.accepts 0xF0000002 = false) := by decide

theorem test_witness_AssembledLinesDecode :
    ((([(.rst, 1), (.csn, 0)] : List (Signal × Nat)).map Prod.fst).Nodup ∧
      ∀ p ∈ ([(.rst, 1), (.csn, 0)] : List (Signal × Nat)), p.2 < 2) ∧
    (Source.write 255).wf = true ∧ (Source.write 256).wf = false ∧ (Source.resetlvl 1).wf = true ∧
    (Source.resetlvl 2).wf = false ∧ (Source.setsig [(.rst, 1), (.rst, 0)]).wf = false := by decide

theorem test_witness_RddataReadsPins :
    (bench 0x42 (calm 2)).quiet 2 ∧ ((bench 0x42 [lost]).drawAt 0).fails = true ∧
    (((bench 0x42 [done 0, lost]).drawAt 0).fails = false ∧
      ((bench 0x42 [done 0, lost]).drawAt 1).fails = true) := by decide

/-- The hypotheses are those of RDDATA, on any byte. -/
theorem test_witness_WrdataDrivesByte :
    (bench 0x42 (calm 2)).quiet 2 ∧ ((bench 0x42 [lost]).drawAt 0).fails = true ∧
    (((bench 0x42 [done 0, landed]).drawAt 0).fails = false ∧
      ((bench 0x42 [done 0, landed]).drawAt 1).fails = true) := by decide

theorem test_witness_SetsigWritesNamedLevels :
    (bench 0x42 (calm 2)).quiet 2 ∧ ((bench 0x42 [lost]).drawAt 0).fails = true ∧
    (((bench 0x42 [done 0, landed]).drawAt 0).fails = false ∧
      ((bench 0x42 [done 0, landed]).drawAt 1).fails = true) := by decide

theorem test_witness_StrobeInvertsOneSignal :
    (popcount 0x80 = 1 ∧ (0x80 : Byte).getLsbD Signal.lrst.id = true ∧ (bench 0x42 (calm 2)).quiet 2) ∧
    (popcount 0x00 ≠ 1 ∧ popcount 0x03 ≠ 1 ∧ popcount 0xFF ≠ 1) ∧
    (popcount 0x01 = 1 ∧ ((bench 0x42 [lost]).drawAt 0).fails = true) ∧
    (((bench 0x42 [done 0, lost]).drawAt 0).fails = false ∧
      ((bench 0x42 [done 0, lost]).drawAt 1).fails = true) := by decide

theorem test_witness_ReldataReleasesDataPort :
    (bench 0x42 (calm 1)).quiet 1 ∧ ((bench 0x42 [lost]).drawAt 0).fails = true := by decide

theorem test_witness_ShadowReadsBackSetsig :
    ∃ t, exec (.setsig 0x41 0x01) (bench 0x5A (calm 2)) = .next t ∧ AnsweredOk t :=
  ⟨_, exec_after _ _, 0x00, by decide⟩

theorem test_witness_TwoStrobesRestore :
    (bench 0x42 (calm 4)).quiet 4 ∧ (bench 0x42 (calm 4)).Inv ∧ (bench 0x42 (calm 4)).shadowValid = true :=
  ⟨by decide, bench_inv _ _, rfl⟩

theorem test_witness_ShadowIsNeverAnOperand : Instr.read ≠ .rdshadow := by decide

theorem test_witness_DataPortCommandsKeepControl :
    (∃ t, exec .rddata (bench 0x42 []) = .next t) ∧ (∃ t, exec .reldata (bench 0x42 []) = .next t) ∧
    (∃ t, exec (.wrdata 1) (bench 0x42 []) = .next t) :=
  ⟨⟨_, exec_after _ _⟩, ⟨_, exec_after _ _⟩, ⟨_, exec_after _ _⟩⟩

theorem test_witness_ControlCommandsKeepDataPort :
    (∃ t, exec .reset (bench 0x42 []) = .next t) ∧ lastSelect .reset = none ∧ constructs .reset = false :=
  ⟨⟨_, exec_after _ _⟩, rfl, rfl⟩

theorem test_witness_LinkinitConstructs :
    (speedOf 10 = some .mbit10 ∧ speedOf 20 = some .mbit20 ∧ (bare 0x00 (calm 8)).quiet 8) ∧
    (∀ b ∈ ([9, 11, 19, 21] : List Byte), b ≠ 10 ∧ b ≠ 20) ∧
    (∃ t, exec (.linkinit 20) (bare 0x00 [lost]) = .next t ∧ ¬ AnsweredOk t) :=
  ⟨by decide, by decide, _, exec_after _ _, fun ⟨d, h⟩ => by
    have he : (after (.linkinit 20) (bare 0x00 [lost])).resp = some ⟨.transportError, 0x00⟩ := by decide
    rw [he] at h
    cases h⟩

/-- The first, the sixth, the seventh and the eighth transaction fail; what the sixth and the seventh leave. -/
theorem test_witness_LinkinitConstructs_failing :
    (∀ k ∈ [0, 5, 6, 7], (bare 0x00 (calm k ++ [lost])).quiet k ∧
      ((bare 0x00 (calm k ++ [lost])).drawAt k).fails = true) ∧
    (after (.linkinit 20) (bare 0x00 (calm 5 ++ [lost]))).linkSpeed = none ∧
    (after (.linkinit 20) (bare 0x00 (calm 6 ++ [lost]))).linkSpeed = some .mbit20 := by decide

theorem test_witness_LinkinitdConstructsAtDefault :
    speedOf 10 = some lab.raw.defaultLinkSpeed ∧ (bare 0x00 (calm 8)).quiet 8 := by decide

theorem test_witness_ConstructionLevels :
    (∃ t, speedOf 20 = some .mbit20 ∧ exec (.linkinit 20) (bare 0x00 (calm 8)) = .next t ∧ AnsweredOk t) ∧
    (∃ t, exec .linkinitd (bare 0x00 (calm 8)) = .next t ∧ AnsweredOk t) :=
  ⟨⟨_, rfl, exec_after _ _, 0x00, by decide⟩, ⟨_, exec_after _ _, 0x00, by decide⟩⟩

theorem test_witness_ReadAccessesAnswerFromPins :
    (bench 0x42 (calm 8)).linkReady = true ∧ (bench 0x42 (calm 8)).quiet 8 := by decide

theorem test_witness_InterruptControlSequence :
    (bench 0x42 (calm 20)).linkReady = true ∧ (bench 0x42 (calm 20)).quiet 20 := by decide

theorem test_witness_WriteSequence :
    (bench 0x42 (calm 11)).linkReady = true ∧ (bench 0x42 (calm 11)).quiet 11 := by decide

theorem test_witness_ResetPulsesLinkResetLine :
    (bench 0x42 (calm 4)).linkReady = true ∧ (bench 0x42 (calm 4)).quiet 4 := by decide

theorem test_witness_ResetlvlHoldsLinkResetLine :
    (bench 0x42 (calm 2)).linkReady = true ∧ (bench 0x42 (calm 2)).quiet 2 := by decide

theorem test_witness_AccessCommandsLeaveLinkReleased :
    (bench 0x42 (calm 20)).level .csn = true ∧
    ∀ i ∈ [Instr.datapresent, .outputready, .inten, .intdis, .write 0xAB, .read],
      (∃ sel, lastSelect i = some sel) ∧ ∃ t, exec i (bench 0x42 (calm 20)) = .next t ∧ AnsweredOk t := by
  refine ⟨by decide, fun i hi => ?_⟩
  have h : (lastSelect i).isSome = true ∧ (after i (bench 0x42 (calm 20))).resp = some ⟨.ok, 0x00⟩ :=
    (by decide : ∀ i ∈ [Instr.datapresent, .outputready, .inten, .intdis, .write 0xAB, .read],
      (lastSelect i).isSome = true ∧ (after i (bench 0x42 (calm 20))).resp = some ⟨.ok, 0x00⟩) i hi
  exact ⟨Option.isSome_iff_exists.1 h.1, _, exec_after _ _, _, h.2⟩

theorem test_witness_AssertedChipSelectStaysAsserted :
    ∃ t, (bench 0x40 (calm 11)).level .csn = false ∧ exec (.write 0x11) (bench 0x40 (calm 11)) = .next t ∧
      AnsweredOk t :=
  ⟨_, by decide, exec_after _ _, 0x00, by decide⟩

/-- A completed write that asserts chip select, and a failed one that lands. -/
theorem test_witness_ChipSelectChangesAlone :
    needsLink .read = true ∧ constructs .linkinitd = true ∧ wordLevel lab 0x52 .csn ≠ wordLevel lab 0x50 .csn ∧
    (∃ t, exec .read (bench 0x42 (calm 8)) = .next t ∧ (0x52, 0x50) ∈ linesMoved (bench 0x42 (calm 8)) t) ∧
    (∃ t, exec .read (bench 0x42 (calm 3 ++ [landed])) = .next t ∧
      (0x52, 0x50) ∈ linesMoved (bench 0x42 (calm 3 ++ [landed])) t) :=
  ⟨rfl, rfl, by decide, ⟨_, exec_after _ _, by decide⟩, _, exec_after _ _, by decide⟩

theorem test_witness_SelectLinesSettledUnderChipSelect :
    (∃ t, (bench 0x42 (calm 3 ++ [landed])).level .csn = true ∧
      exec .read (bench 0x42 (calm 3 ++ [landed])) = .next t ∧
      (0x52, 0x50) ∈ linesMoved (bench 0x42 (calm 3 ++ [landed])) t) ∧
    (∃ t, lastSelect .reset = none ∧ (bench 0x42 (calm 4)).level .csn = true ∧
      exec .reset (bench 0x42 (calm 4)) = .next t ∧ (0x42, 0xC2) ∈ linesMoved (bench 0x42 (calm 4)) t) :=
  ⟨⟨_, by decide, exec_after _ _, by decide⟩, _, rfl, by decide, exec_after _ _, by decide⟩

theorem test_witness_InterruptControlLatchesTwice :
    (∃ t, exec .inten (bench 0x42 (calm 20)) = .next t ∧ AnsweredOk t) ∧
    (∃ t, exec .intdis (bench 0x42 (calm 20)) = .next t ∧ AnsweredOk t) :=
  ⟨⟨_, exec_after _ _, 0x00, by decide⟩, ⟨_, exec_after _ _, 0x00, by decide⟩⟩

theorem test_witness_TransactionCounts :
    (∃ t, exec (.strobe 0x80) (bench 0x42 (calm 2)) = .next t ∧ AnsweredOk t) ∧
    (∃ t, exec (.linkinit 10) (bare 0x00 (calm 8)) = .next t ∧ AnsweredOk t) :=
  ⟨⟨_, exec_after _ _, 0x00, by decide⟩, ⟨_, exec_after _ _, 0x00, by decide⟩⟩

theorem test_witness_BootedLinkStaysFreeOfContention :
    (lab.raw.regsel.levels .odrWr).rnw = false ∧ (lab.raw.regsel.levels .isrWr).rnw = false ∧
    (lab.raw.regsel.levels .osrWr).rnw = false ∧ needsLink (.write 0xAB) = true ∧
    (bench 0x42 (calm 11)).booted ∧ (bench 0x42 (calm 11)).contention = false ∧
    ∃ t, exec (.write 0xAB) (bench 0x42 (calm 11)) = .next t ∧ AnsweredOk t :=
  ⟨rfl, rfl, rfl, rfl, ⟨rfl, rfl, by decide⟩, rfl, _, exec_after _ _, 0x00, by decide⟩

theorem test_witness_ReadAccessContentionIsFlagged :
    (lab.raw.regsel.levels .idrRd).rnw = true ∧ (bare 0x42 (calm 8)).dataDir ≠ .input ∧
    ∃ t, exec .read { bare 0x42 (calm 8) with linkReady := true } = .next t ∧ AnsweredOk t :=
  ⟨rfl, by decide, _, exec_after _ _, 0x00, by decide⟩

theorem test_witness_ReferenceAdapterTakesWrittenBytes :
    lab.raw.regsel = .standard ∧ (bench 0x42 (calm 11)).level .csn = true ∧
    (∃ t, exec (.write 0xAB) (bench 0x42 (calm 11)) = .next t ∧ AnsweredOk t) ∧
    (∃ t, exec .inten (bench 0x42 (calm 20)) = .next t ∧ AnsweredOk t) ∧
    (∃ t, exec .intdis (bench 0x42 (calm 20)) = .next t ∧ AnsweredOk t) :=
  ⟨rfl, by decide, ⟨_, exec_after _ _, 0x00, by decide⟩, ⟨_, exec_after _ _, 0x00, by decide⟩,
    ⟨_, exec_after _ _, 0x00, by decide⟩⟩

/-- Each command completes, and the adapter admits the poll that says no byte is waiting and not the other. -/
theorem test_witness_ReferenceAdapterAnswersPolls :
    (∃ t, exec .datapresent (bench 0x42 (calm 8)) = .next t ∧ AnsweredOk t ∧
      adapterAdmits lab (fun _ => ⟨false, true⟩) 0 (pinned 0x42 0xFF 0) (newEvents (bench 0x42 (calm 8)) t) = true ∧
      adapterAdmits lab (fun _ => ⟨true, true⟩) 0 (pinned 0x42 0xFF 0) (newEvents (bench 0x42 (calm 8)) t) = false) ∧
    (∃ t, exec .outputready (bench 0x42 (calm 8)) = .next t ∧ AnsweredOk t) ∧
    (∃ t, exec .read (bench 0x42 (calm 8)) = .next t ∧ AnsweredOk t) ∧
    (adapterEvent lab (pinned 0x42 0xFF 0) (lab.rd .olatCtrl 0x42)).inputStatus.written = false ∧
    (adapterEvent lab { pinned 0x42 0xFF 0 with inputStatus := .ofWrite none }
      (lab.rd .olatCtrl 0x42)).inputStatus.written = true :=
  ⟨⟨_, exec_after _ _, ⟨0x00, by decide⟩, by decide, by decide⟩, ⟨_, exec_after _ _, 0x00, by decide⟩,
    ⟨_, exec_after _ _, 0x00, by decide⟩, rfl, rfl⟩

theorem test_witness_ReferenceAdapterAfterFailedRelease :
    lab.raw.regsel = .standard ∧ (bench 0x42 (calm 7 ++ [landed])).level .csn = true ∧
    (bench 0x42 (calm 7 ++ [landed])).linkReady = true ∧ (bench 0x42 (calm 7 ++ [landed])).quiet 7 ∧
    ((bench 0x42 (calm 7 ++ [landed])).drawAt 7).fails = true ∧
    ((bench 0x42 (calm 7 ++ [lost])).drawAt 7).fails = true := by decide

theorem test_witness_ReferenceAdapterKeptByFailedReads :
    needsLink .inten = true ∧ constructs (.linkinit 10) = true ∧ (bench 0x42 [lost]).linkReady = true ∧
    argumentOk (.linkinit 10) = true ∧ argumentOk (.strobe 0x80) = true ∧ argumentOk (.strobe 0x00) = false ∧
    ((bench 0x42 [lost]).drawAt 0).fails = true ∧ (adapterAt (bench 0x42 [lost])).writeNext = false := by decide

end Sys2Proof.Tests
end

section
/-! Every command completes with one response (00_scope.md R14; 60_exceptions.md R210, R214): what the record of a
run keeps while a command is in progress, and which responses a sequence gives when it raises no error. -/

namespace Sys2Proof.Machine

/-! ### Relations that every command keeps -/

/-- A preorder that relates a state to what each single operation makes of it, completed or failed, is kept by the
primitives of every command. -/
theorem Primitives.of_preorder {R : State → State → Prop} (refl : ∀ s, R s s)
    (trans : ∀ s t u, R s t → R t u → R s u)
    (read : ∀ r s, R s (s.afterRead r)) (readFailed : ∀ r s, R s (s.advance.record (s.board.failed r)))
    (control : ∀ n s, R s (s.afterControl n)) (direction : ∀ v d s, R s (s.afterDirection v d))
    (data : ∀ b s, R s (s.completedWrite .olatData b)) (writeFailed : ∀ r v s, R s (s.failedWrite r v))
    (wait : ∀ s, R s s.waited) (ready : ∀ v s, R s (s.setLinkReady v))
    (speed : ∀ v s, R s (s.setLinkSpeed v)) : Primitives R (fun _ => R) :=
  have seq := seqBoth refl trans
  have bothRead (r : Reg) : Both R (memRead r) := both_read r (read r) (readFailed r)
  have bothControl (n : Byte) : Both R (writeControl n) := both_control n (control n) (writeFailed _ n)
  { seq := seq
    readControl := bothRead _
    readPins := bothRead _
    control := bothControl
    release := both_release (fun s => direction _ _ s) fun s => writeFailed _ _ s
    write := fun b => both_writeData trans b (fun s => direction _ _ s) (fun s => writeFailed _ _ s) (data b)
      (writeFailed _ b)
    wait := wait
    construct := .construct seq (.setSignals seq (bothRead _) bothControl) ready speed
    notConstructed := fun s _ => refl s
    invalid := refl }

/-! ### The record while a command is in progress -/

/-- t is s further on in a command: the trace has only grown, nothing has been answered yet, and the configuration
and the commands still waiting are as they were (R22, R40, R41, R214). -/
structure Underway (s t : State) : Prop where
  trace     : s.trace <+: t.trace
  responses : t.responses = s.responses
  board     : t.board = s.board
  pending   : t.pending = s.pending

theorem Underway.refl (s : State) : Underway s s := ⟨List.prefix_rfl, rfl, rfl, rfl⟩

theorem Underway.trans {s t u : State} (h : Underway s t) (k : Underway t u) : Underway s u :=
  ⟨h.trace.trans k.trace, k.responses.trans h.responses, k.board.trans h.board, k.pending.trans h.pending⟩

/-- One more event in the trace. -/
theorem Underway.of_event {s t : State} {e : Event} (ht : t.trace = s.trace ++ [e])
    (hr : t.responses = s.responses) (hb : t.board = s.board) (hp : t.pending = s.pending) : Underway s t :=
  ⟨ht ▸ List.prefix_append _ _, hr, hb, hp⟩

theorem underway_primitives : Primitives Underway (fun _ => Underway) :=
  .of_preorder (refl := .refl) (trans := fun _ _ _ => .trans)
    (read := fun r s => .of_event (s.afterRead_trace r) (by simp) (by simp) (by simp))
    (readFailed := fun _ _ => .of_event rfl rfl rfl rfl)
    (control := fun n s => .of_event (s.afterControl_trace n) (by simp) (by simp) (by simp))
    (direction := fun v d s => .of_event (s.afterDirection_trace v d) (by simp) (by simp) (by simp))
    (data := fun _ _ => .of_event rfl rfl rfl rfl)
    (writeFailed := fun r v s => .of_event (s.failedWrite_trace r v) (by simp) (by simp) (by simp))
    (wait := fun _ => .of_event rfl rfl rfl rfl)
    (ready := fun _ _ => ⟨List.prefix_rfl, rfl, rfl, rfl⟩)
    (speed := fun _ _ => ⟨List.prefix_rfl, rfl, rfl, rfl⟩)

/-- A command that ends in the state u leaves its full record, whatever its sequence did. -/
theorem Underway.ended {s u : State} (h : Underway s.start u) (r : Response) :
    ∃ events, Ended s (u.finish r) r events := by
  obtain ⟨events, hl⟩ := h.trace
  exact ⟨events, ended_finish h.board h.pending h.responses hl.symm⟩

/-! ### The responses of a sequence that raises no error -/

/-- Where the sequence completes, its response reports no error: OK or ShadowUnknown (R200). -/
def CompletesWithoutError (x : Op Response) : Prop := ∀ s r t, x s = .ok r t → r.status.isError = false

theorem CompletesWithoutError.bind {α : Type} {x : Op α} {f : α → Op Response}
    (hf : ∀ a, CompletesWithoutError (f a)) : CompletesWithoutError (x >>= f) := by
  intro s r t h
  obtain ⟨a, u, -, hu⟩ := bind_eq_ok.1 h
  exact hf a u r t hu

theorem CompletesWithoutError.respond {c : Status} (hc : c.isError = false) (d : Byte) :
    CompletesWithoutError (respond c d) := by
  intro s r t h
  cases h
  exact hc

/-- A sequence whose last act is to respond OK. -/
theorem CompletesWithoutError.respond_ok {α : Type} (x : Op α) (d : α → Byte) :
    CompletesWithoutError (x >>= fun a => Machine.respond .ok (d a)) :=
  .bind fun a => .respond rfl (d a)

theorem CompletesWithoutError.raise (e : Status) : CompletesWithoutError (raise e) := by
  intro s r t h
  cases h

theorem commandBody_completesWithoutError (i : Instr) : CompletesWithoutError (commandBody i) := by
  cases i with
  | rddata | wrdata _ | setsig _ _ | strobe _ | reldata => exact .respond_ok _ _
  | rdshadow =>
    refine .bind fun valid => .bind fun v => ?_
    cases valid <;> exact .respond rfl _
  | linkinit b =>
    simp only [commandBody]
    cases speedOf b with
    | none => exact .raise _
    | some n => exact .respond_ok _ _
  | linkinitd | datapresent | outputready | read | reset | resetlvl _ => exact .bind fun _ => .respond_ok _ _
  | write _ => exact .bind fun _ => .bind fun _ => .respond_ok _ _
  | inten | intdis => exact .bind fun _ => .bind fun _ => .bind fun _ => .respond_ok _ _

end Sys2Proof.Machine

namespace Sys2Proof

open Machine

/-- Settles O8: the sequence of a command keeps the record while it runs, and `finish` adds the one response. -/
theorem everyCommandEndsWithOneResponse : Obligations.EveryCommandEndsWithOneResponse := by
  unfold Obligations.EveryCommandEndsWithOneResponse
  intro i s
  have underway := underway_primitives.body i s.start
  rw [exec_eq]
  cases hbody : commandBody i s.start with
  | ok r u =>
    rw [hbody] at underway
    obtain ⟨events, ended⟩ := underway.ended r
    have noError := commandBody_completesWithoutError i _ _ _ hbody
    exact ⟨_, r, events, rfl, ended, by simp [noError]⟩
  | error e u =>
    rw [hbody] at underway
    obtain ⟨events, ended⟩ := underway.ended (errorResponse e)
    exact ⟨_, _, events, rfl, ended, fun _ => rfl⟩

end Sys2Proof
end

section
/-! Every step keeps the invariant (10_state.md R34 to R41; 20_memory.md R60, R62; 60_exceptions.md R206): the clauses
that hold at every moment of a command are kept by its primitives, and `finish` gives the others. -/

namespace Sys2Proof

/-- The registers the block ever writes (R60, R61). -/
def Reg.written : Reg → Bool
  | .dirData | .olatData | .olatCtrl => true
  | .inData | .dirCtrl | .inCtrl => false

end Sys2Proof

namespace Sys2Proof.Machine

/-! ### What one step can do -/

/-- A step holds the state, or takes the next command and runs it, or takes a word that does not decode. -/
theorem step_cases {s t : State} (h : step s = .next t) :
    ((s.busy = true ∨ s.pending = []) ∧ t = s) ∨
    (∃ w rest i, s.pending = w :: rest ∧ decode w = .ok i ∧ exec i (s.takeCommand rest) = .next t) ∨
    ∃ w rest e, s.pending = w :: rest ∧ decode w = .error e ∧ t = (s.takeCommand rest).illegal := by
  unfold step at h
  split at h
  · next busy => cases h; exact .inl ⟨.inl busy, rfl⟩
  · split at h
    · next none => cases h; exact .inl ⟨.inr none, rfl⟩
    · next w rest issued =>
      split at h
      · next i legal => exact .inr (.inl ⟨w, rest, i, issued, legal, h⟩)
      · next e illegal => cases h; exact .inr (.inr ⟨w, rest, e, issued, illegal, rfl⟩)

/-- A relation that the primitives keep holds from a command's start to the state that gets its response. -/
theorem Primitives.exec_next {R : State → State → Prop} (p : Primitives R (fun _ => R)) {i : Instr} {s t : State}
    (run : exec i s = .next t) : ∃ u r, R s.start u ∧ t = u.finish r := by
  have kept := p.body i s.start
  rw [exec_eq] at run
  cases run
  cases hbody : commandBody i s.start <;> rw [hbody] at kept <;> exact ⟨_, _, kept, rfl⟩

/-! ### The registers the block writes -/

/-- The register space is in canonical form and lists only registers the block writes (R60, R61). -/
def WrittenCells (b : Board) (m : Memory) : Prop :=
  Memory.wf m ∧ ∀ c ∈ m, ∃ r, r.written = true ∧ c.1 = (b.addr r).key

theorem WrittenCells.store {s : State} (h : WrittenCells s.board s.mem) {r : Reg} (hr : r.written = true) (v : Byte) :
    WrittenCells s.board (s.store r v).mem := by
  obtain ⟨wf, keys⟩ := h
  refine ⟨Memory.write_wf v (ExpAddr.key_lt _) wf, fun c hc => ?_⟩
  rcases Memory.mem_write hc with rfl | hc
  · exact ⟨r, hr, rfl⟩
  · exact keys c hc

/-- The keys of the written registers, as the invariant lists them. -/
theorem written_key_iff (b : Board) (k : Nat) : (∃ r, Reg.written r = true ∧ k = (b.addr r).key) ↔
    k = (b.addr .dirData).key ∨ k = (b.addr .olatData).key ∨ k = (b.addr .olatCtrl).key := by
  constructor
  · rintro ⟨r, hr, rfl⟩
    cases r <;> simp [Reg.written] at hr ⊢
  · rintro (rfl | rfl | rfl)
    · exact ⟨.dirData, rfl, rfl⟩
    · exact ⟨.olatData, rfl, rfl⟩
    · exact ⟨.olatCtrl, rfl, rfl⟩

/-- A failed write, landed or not, leaves every other register's cell alone (R206). -/
theorem State.failedWrite_read_other (s : State) {r q : Reg} (v : Byte) (h : q ≠ r) :
    Memory.read (s.failedWrite r v).mem (s.board.addr q).key = Memory.read s.mem (s.board.addr q).key := by
  rw [State.failedWrite_mem]
  split
  · exact s.read_store_other v h
  · rfl

/-! ### The invariant inside a command -/

/-- The part of the invariant that holds at every moment of a command, between any two of its primitives. -/
structure State.Consistent (s : State) : Prop where
  cells : WrittenCells s.board s.mem
  shadowLatch : s.shadowValid = true → Memory.read s.mem (s.board.addr .olatCtrl).key = some s.shadow
  shadowTrace : s.shadowValid = true → (writesTo (s.board.addr .olatCtrl) s.trace).getLast? = some s.shadow
  dirInput : s.dataDir = .input → Memory.read s.mem (s.board.addr .dirData).key = some s.board.raw.dirAllIn
  dirOutput : s.dataDir = .output → Memory.read s.mem (s.board.addr .dirData).key = some s.board.raw.dirAllOut
  linkSpeed : s.linkReady = true → s.linkSpeed ≠ none

namespace State.Consistent

variable {s : State}

/-- Between commands the invariant says this much. -/
theorem of_inv (h : s.Inv) : s.Consistent :=
  { h with cells := ⟨h.memWf, fun c hc => (written_key_iff _ _).2 (h.memKeys c hc)⟩ }

/-- A response turns it into the invariant: the command is over, and `RESP` is the response just given. -/
theorem finish (h : s.Consistent) (r : Response) : (s.finish r).Inv :=
  { h with
    memWf := h.cells.1
    memKeys := fun c hc => (written_key_iff _ _).1 (h.cells.2 c hc)
    idle := ⟨rfl, rfl⟩
    lastResp := by simp }

theorem start (h : s.Consistent) : s.start.Consistent := { h with }

theorem takeCommand (h : s.Consistent) (rest : List CmdWord) : (s.takeCommand rest).Consistent := { h with }

/-- An event that is no completed control-latch write. -/
theorem record (h : s.Consistent) {e : Event} (he : writesTo (s.board.addr .olatCtrl) [e] = []) :
    (s.record e).Consistent :=
  { h with shadowTrace := fun valid => by simpa [writesTo_append, he] using h.shadowTrace valid }

theorem advance (h : s.Consistent) : s.advance.Consistent := { h with }

theorem afterRead (h : s.Consistent) (r : Reg) : (s.afterRead r).Consistent := h.advance.record (by simp)

theorem readFailed (h : s.Consistent) (r : Reg) : (s.advance.record (s.board.failed r)).Consistent :=
  h.advance.record (by simp)

theorem waited (h : s.Consistent) : s.waited.Consistent :=
  { h.record (e := .wait s.board.raw.strobeHold) (by simp) with }

/-- A completed control-latch write makes `SHADOW` valid and what the latch holds (R125). -/
theorem afterControl (h : s.Consistent) (n : Byte) : (s.afterControl n).Consistent where
  cells := h.cells.store rfl n
  shadowLatch _ := s.read_store_same .olatCtrl n
  shadowTrace _ := by simp [writesTo_append]
  dirInput input := (s.read_store_other n (by decide)).trans (h.dirInput input)
  dirOutput output := (s.read_store_other n (by decide)).trans (h.dirOutput output)
  linkSpeed := h.linkSpeed

/-- A completed direction write makes `DATA_DIR` true of the register, where it records what was written (R36). -/
theorem afterDirection (h : s.Consistent) {v : Byte} {d : DataDir} (hin : d = .input → v = s.board.raw.dirAllIn)
    (hout : d = .output → v = s.board.raw.dirAllOut) : (s.afterDirection v d).Consistent where
  cells := h.cells.store rfl v
  shadowLatch valid := (s.read_store_other v (by decide)).trans (h.shadowLatch valid)
  shadowTrace valid := by simpa [writesTo_append] using h.shadowTrace valid
  dirInput input := (s.read_store_same .dirData v).trans (congrArg some (hin input))
  dirOutput output := (s.read_store_same .dirData v).trans (congrArg some (hout output))
  linkSpeed := h.linkSpeed

theorem completedData (h : s.Consistent) (b : Byte) : (s.completedWrite .olatData b).Consistent where
  cells := h.cells.store rfl b
  shadowLatch valid := (s.read_store_other b (by decide)).trans (h.shadowLatch valid)
  shadowTrace valid := by simpa [writesTo_append] using h.shadowTrace valid
  dirInput input := (s.read_store_other b (by decide)).trans (h.dirInput input)
  dirOutput output := (s.read_store_other b (by decide)).trans (h.dirOutput output)
  linkSpeed := h.linkSpeed

/-- A failed write leaves no claim about the register it may have changed (R206). -/
theorem failedWrite (h : s.Consistent) {r : Reg} (hr : r.written = true) (v : Byte) :
    (s.failedWrite r v).Consistent := by
  constructor <;> simp only [State.failedWrite_board, State.failedWrite_shadow, State.failedWrite_shadowValid,
    State.failedWrite_dataDir, State.failedWrite_linkReady, State.failedWrite_linkSpeed, State.failedWrite_trace]
  case cells =>
    rw [State.failedWrite_mem]
    split
    · exact h.cells.store hr v
    · exact h.cells
  case shadowLatch =>
    intro valid
    simp only [Bool.and_eq_true, bne_iff_ne] at valid
    obtain ⟨valid, other⟩ := valid
    rw [s.failedWrite_read_other v other.symm, h.shadowLatch valid]
  case shadowTrace =>
    intro valid
    simp only [Bool.and_eq_true] at valid
    simpa [writesTo_append] using h.shadowTrace valid.1
  case dirInput =>
    intro input
    split at input
    · cases input
    · next other => rw [s.failedWrite_read_other v (Ne.symm other), h.dirInput input]
  case dirOutput =>
    intro output
    split at output
    · cases output
    · next other => rw [s.failedWrite_read_other v (Ne.symm other), h.dirOutput output]
  case linkSpeed => exact h.linkSpeed

theorem setLinkReady (h : s.Consistent) {ready : Bool} (hr : ready = true → s.linkSpeed ≠ none) :
    (s.setLinkReady ready).Consistent := { h with linkSpeed := hr }

theorem setLinkSpeed (h : s.Consistent) (n : LinkSpeed) : (s.setLinkSpeed n).Consistent :=
  { h with linkSpeed := fun _ => by simp }

end State.Consistent

/-! ### The primitives keep it -/

/-- What holds before an operation holds after it. -/
def KeepsConsistent (s t : State) : Prop := s.Consistent → t.Consistent

theorem keepsConsistent_sequenced : Sequenced KeepsConsistent (fun _ => KeepsConsistent) :=
  seqBoth (fun _ h => h) fun _ _ _ first second h => second (first h)

theorem keepsConsistent_read (r : Reg) : Both KeepsConsistent (memRead r) :=
  both_read r (fun _ h => h.afterRead r) fun _ h => h.readFailed r

theorem keepsConsistent_control (n : Byte) : Both KeepsConsistent (writeControl n) :=
  both_control n (fun _ h => h.afterControl n) fun _ h => h.failedWrite rfl n

theorem keepsConsistent_setSignals (m v : Byte) : Both KeepsConsistent (setSignals m v) :=
  .setSignals keepsConsistent_sequenced (keepsConsistent_read _) keepsConsistent_control m v

/-- The end of a construction: by the time the Link is made ready its speed stands (R160). -/
theorem keepsConsistent_makeReady (n : LinkSpeed) : Both KeepsConsistent (do
    updateState fun s => s.setLinkSpeed n
    setSignals (maskOf [.rst]) 0
    updateState fun s => s.setLinkReady true) := by
  intro s
  have kept := keepsConsistent_setSignals (maskOf [.rst]) 0 (s.setLinkSpeed n)
  simp only [bind_run, updateState_run]
  cases hset : setSignals (maskOf [.rst]) 0 (s.setLinkSpeed n) with
  | error e t =>
    rw [hset] at kept
    exact fun h => kept (h.setLinkSpeed n)
  | ok u t =>
    rw [hset] at kept
    obtain ⟨-, rfl⟩ := setSignals_ok hset
    exact fun h => (kept (h.setLinkSpeed n)).setLinkReady fun _ => by simp

theorem keepsConsistent_construct (n : LinkSpeed) : Both KeepsConsistent (construct n) :=
  have seq := keepsConsistent_sequenced
  have unready : Both KeepsConsistent (updateState fun s => s.setLinkReady false) :=
    fun _ h => h.setLinkReady (by simp)
  .bind seq unready fun _ => .bind seq (keepsConsistent_setSignals _ _) fun _ =>
    .bind seq (keepsConsistent_setSignals _ _) fun _ => .bind seq (keepsConsistent_setSignals _ _) fun _ =>
      keepsConsistent_makeReady n

theorem keepsConsistent_primitives : Primitives KeepsConsistent (fun _ => KeepsConsistent) where
  seq := keepsConsistent_sequenced
  readControl := keepsConsistent_read _
  readPins := keepsConsistent_read _
  control := keepsConsistent_control
  release := both_release (fun _ h => h.afterDirection (fun _ => rfl) (by simp)) fun _ h => h.failedWrite rfl _
  write b := both_writeData keepsConsistent_sequenced.trans b
    (fun _ h => h.afterDirection (by simp) fun _ => rfl) (fun _ h => h.failedWrite rfl _)
    (fun _ h => h.completedData b) fun _ h => h.failedWrite rfl b
  wait _ h := h.waited
  construct := keepsConsistent_construct
  notConstructed _ _ h := h
  invalid _ h := h

/-- Every command, however it ends, leaves the invariant. -/
theorem State.Consistent.inv_of_exec {s t : State} (h : s.Consistent) {i : Instr} (run : exec i s = .next t) : t.Inv := by
  obtain ⟨u, r, kept, rfl⟩ := keepsConsistent_primitives.exec_next run
  exact (kept h.start).finish r

end Sys2Proof.Machine

namespace Sys2Proof

open Machine

/-- Settles O3: a step holds the state, runs a command, or answers a word that does not decode. -/
theorem stepKeepsInvariant : Obligations.StepKeepsInvariant := by
  unfold Obligations.StepKeepsInvariant
  intro s t inv run
  have consistent := State.Consistent.of_inv inv
  rcases step_cases run with ⟨-, rfl⟩ | ⟨_, rest, i, -, -, run⟩ | ⟨_, rest, _, -, -, rfl⟩
  · exact inv
  · exact (consistent.takeCommand rest).inv_of_exec run
  · exact (consistent.takeCommand rest).finish _

end Sys2Proof
end

section
/-! What no step takes back (10_state.md R22, R40; 60_exceptions.md R208, R214; log 6): the record of a step that runs
a command is that of `Ended`, and the contention flag is kept by every primitive. -/

namespace Sys2Proof.Machine

/-- A run flagged for contention is still flagged. -/
def KeepsFlag (s t : State) : Prop := s.contention = true → t.contention = true

theorem State.failedWrite_keepsFlag (s : State) (r : Reg) (v : Byte) : KeepsFlag s (s.failedWrite r v) := by
  intro flagged
  unfold State.failedWrite
  cases (s.drawAt 0).lands <;> simp [flagged]

theorem keepsFlag_primitives : Primitives KeepsFlag (fun _ => KeepsFlag) :=
  .of_preorder (refl := fun _ h => h) (trans := fun _ _ _ first second h => second (first h))
    (read := fun _ _ h => h)
    (readFailed := fun _ _ h => h)
    (control := fun n s h => by simp [s.afterControl_contention n, h])
    (direction := fun v d s h => by simp [s.afterDirection_contention v d, h])
    (data := fun _ _ h => h)
    (writeFailed := fun r v s => s.failedWrite_keepsFlag r v)
    (wait := fun _ h => h)
    (ready := fun _ _ h => h)
    (speed := fun _ _ h => h)

/-- Every command, however it ends, keeps the contention flag. -/
theorem exec_keepsFlag {i : Instr} {s t : State} (run : exec i s = .next t) : KeepsFlag s t := by
  obtain ⟨u, r, kept, rfl⟩ := keepsFlag_primitives.exec_next run
  exact kept

end Sys2Proof.Machine

namespace Sys2Proof

open Machine

/-- Settles O9: a step holds the state, runs a command to its one response, or answers a word that does not
decode. -/
theorem stepOnlyExtendsRecord : Obligations.StepOnlyExtendsRecord := by
  unfold Obligations.StepOnlyExtendsRecord
  intro s t run
  rcases step_cases run with ⟨-, rfl⟩ | ⟨_, rest, i, -, -, run⟩ | ⟨_, rest, _, -, -, rfl⟩
  · exact ⟨List.prefix_rfl, List.prefix_rfl, by omega, rfl, id⟩
  · obtain ⟨t', r, events, run', ended, -⟩ := everyCommandEndsWithOneResponse i (s.takeCommand rest)
    obtain rfl : t = t' := by rw [run] at run'; cases run'; rfl
    exact ⟨⟨events, ended.trace.symm⟩, ⟨[r], ended.responses.symm⟩, by simp [ended.responses], ended.board,
      fun flagged => exec_keepsFlag run flagged⟩
  · exact ⟨List.prefix_rfl, List.prefix_append _ _, by simp [State.illegal], rfl, id⟩

end Sys2Proof
end

section
/-! The SignalMap is a bijection (10_state.md R25): eight signals at different bits fill the eight bits of the control
port, and a map that is not injective makes no configuration. -/

namespace Sys2Proof

/-- Eight signals at eight different bits leave no bit unused. -/
theorem Board.sig_surjective (b : Board) : Function.Surjective b.sig := by
  have listed : Function.Injective (fun i : Fin 8 => Signal.all.get i) :=
    List.nodup_iff_injective_get.1 (by decide : Signal.all.Nodup)
  have onto : Function.Surjective fun i : Fin 8 => b.sig (Signal.all.get i) :=
    Finite.surjective_of_injective fun i j h => listed (b.sig_injective h)
  intro bit
  obtain ⟨i, hi⟩ := onto bit
  exact ⟨_, hi⟩

/-- A configuration is refused exactly where it is not well formed. -/
theorem Board.check_eq_none_iff (p : Params) : Board.check p = none ↔ ¬ p.wf = true := by
  simp [Board.check]

/-- Settles O11: an admitted map is injective and hence onto, and a map with a shared bit is not admitted. -/
theorem everyControlBitCarriesOneSignal : Obligations.EveryControlBitCarriesOneSignal := by
  unfold Obligations.EveryControlBitCarriesOneSignal
  constructor
  · intro b bit
    obtain ⟨x, hx⟩ := b.sig_surjective bit
    exact ⟨x, hx, fun y hy => b.sig_injective (hy.trans hx.symm)⟩
  · intro p x y different shared
    rw [Board.check_eq_none_iff]
    intro wf
    exact different (Board.sig_injective ⟨p, wf⟩ shared)

end Sys2Proof
end

section
/-! SHADOW is no operand (10_state.md R34; 40_interface.md R125, R130): two runs from states that differ only in the
shadow control word stay together through every operation but RDSHADOW's look at it. -/

namespace Sys2Proof.Machine

/-- Two operations ended alike, and their states differ at most in the shadow control word. -/
inductive SameButShadow {α : Type} : EStateM.Result Status State α → EStateM.Result Status State α → Prop
  | ok (a : α) (t : State) (c : Byte) (w : Bool) : SameButShadow (.ok a t) (.ok a (t.withShadow c w))
  | error (e : Status) (t : State) (c : Byte) (w : Bool) : SameButShadow (.error e t) (.error e (t.withShadow c w))

/-- The operation does not look at the shadow control word, whatever the environment answers. -/
def ShadowBlind {α : Type} (x : Op α) : Prop := ∀ s b v, SameButShadow (x s) (x (s.withShadow b v))

namespace ShadowBlind

theorem bind {α β : Type} {x : Op α} {f : α → Op β} (hx : ShadowBlind x) (hf : ∀ a, ShadowBlind (f a)) :
    ShadowBlind (x >>= f) := by
  intro s b v
  have first := hx s b v
  rw [bind_run, bind_run]
  generalize x s = result, x (s.withShadow b v) = result' at first ⊢
  cases first with
  | ok a t c w => exact hf a t c w
  | error e t c w => exact .error e t c w

theorem pure {α : Type} (a : α) : ShadowBlind (pure a : Op α) := fun s => .ok a s

theorem respond (c : Status) (d : Byte) : ShadowBlind (respond c d) := fun s => .ok (⟨c, d⟩ : Response) s

theorem raise {α : Type} (e : Status) : ShadowBlind (raise e : Op α) := fun s => .error e s

/-- A look at a part of the state that is not the shadow control word. -/
theorem view {α : Type} {f : State → α} (hf : ∀ s b v, f (s.withShadow b v) = f s) :
    ShadowBlind (viewState f) := by
  intro s b v
  rw [viewState_run, viewState_run, hf]
  exact .ok _ _ b v

/-- An update that leaves the shadow control word as it is. -/
theorem update {f : State → State} (hf : ∀ s b v, f (s.withShadow b v) = (f s).withShadow b v) :
    ShadowBlind (updateState f) := by
  intro s b v
  rw [updateState_run, updateState_run, hf]
  exact .ok _ _ b v

theorem memRead (r : Reg) : ShadowBlind (memRead r) := by
  intro s b v
  cases hf : (s.drawAt 0).fails
  · rw [memRead_quiet hf, memRead_quiet (s := s.withShadow b v) hf]
    cases r <;> exact .ok _ _ b v
  · rw [memRead_fails hf, memRead_fails (s := s.withShadow b v) hf]
    exact .error _ _ b v

/-- A failed control-latch write makes both shadows invalid; every other failed write leaves both (R206). -/
theorem afterFailedWrite (s : State) (b : Byte) (v : Bool) (r : Reg) :
    (s.withShadow b v).afterFailedWrite r = (s.afterFailedWrite r).withShadow b (v && r != .olatCtrl) := by
  cases r <;> simp [State.afterFailedWrite, State.withShadow]

theorem failedWrite (s : State) (b : Byte) (v : Bool) (r : Reg) (n : Byte) :
    (s.withShadow b v).failedWrite r n = (s.failedWrite r n).withShadow b (v && r != .olatCtrl) := by
  have draw : (s.withShadow b v).drawAt 0 = s.drawAt 0 := rfl
  have same (u : State) (e : Event) : (((u.withShadow b v).advance.record e).afterFailedWrite r).noteContention =
      ((u.advance.record e).afterFailedWrite r).noteContention.withShadow b (v && r != .olatCtrl) :=
    congrArg State.noteContention (afterFailedWrite (u.advance.record e) b v r)
  unfold State.failedWrite
  rw [draw]
  cases (s.drawAt 0).lands
  · exact same s _
  · exact same (s.store r n) _

theorem memWrite (r : Reg) (n : Byte) : ShadowBlind (memWrite r n) := by
  intro s b v
  cases hf : (s.drawAt 0).fails
  · rw [memWrite_quiet hf, memWrite_quiet (s := s.withShadow b v) hf]
    exact .ok _ _ b v
  · rw [memWrite_fails hf, memWrite_fails (s := s.withShadow b v) hf, failedWrite]
    exact .error _ _ _ _

theorem writeControl (n : Byte) : ShadowBlind (writeControl n) :=
  .bind (.memWrite _ _) fun _ s _ _ => .ok () ((s.commitShadow n).noteContention) n true

theorem writeDirection (n : Byte) (d : DataDir) : ShadowBlind (writeDirection n d) :=
  .bind (.memWrite _ _) fun _ => .update fun _ _ _ => rfl

theorem releaseData : ShadowBlind releaseData :=
  .bind (.view fun _ _ _ => rfl) fun _ => .writeDirection _ _

theorem readData : ShadowBlind readData := .bind .releaseData fun _ => .memRead _

theorem writeData (n : Byte) : ShadowBlind (writeData n) :=
  .bind (.view fun _ _ _ => rfl) fun _ => .bind (.writeDirection _ _) fun _ => .memWrite _ _

/-- The base of a control-latch change is the latch read (R125). -/
theorem setSignals (m v : Byte) : ShadowBlind (setSignals m v) :=
  .bind (.memRead _) fun _ => .bind (.view fun _ _ _ => rfl) fun _ => .writeControl _

theorem waitHold : ShadowBlind waitHold := .update fun _ _ _ => rfl

/-- The base of a strobe is the latch read (R130). -/
theorem strobeSignal (m : Byte) : ShadowBlind (strobeSignal m) := by
  unfold Machine.strobeSignal
  split
  · exact .bind (.memRead _) fun _ => .bind (.view fun _ _ _ => rfl) fun _ =>
      .bind (.writeControl _) fun _ => .waitHold
  · exact .raise _

theorem requireLink : ShadowBlind requireLink := by
  intro s b v
  have ready : (s.withShadow b v).linkReady = s.linkReady := rfl
  unfold Machine.requireLink
  rw [ready]
  split
  · exact .ok () s b v
  · exact .error .notConstructed s b v

theorem pulse (x : Signal) : ShadowBlind (pulse x) := .bind (.strobeSignal _) fun _ => .strobeSignal _

theorem selectRegister (sel : Selector) : ShadowBlind (selectRegister sel) :=
  .bind (.view fun _ _ _ => rfl) fun _ => .setSignals _ _

theorem accessRead (sel : Selector) : ShadowBlind (accessRead sel) :=
  .bind (.selectRegister _) fun _ => .bind (.setSignals _ _) fun _ => .bind .readData fun _ =>
    .bind (.setSignals _ _) fun _ => .pure _

theorem accessWrite (sel : Selector) (n : Byte) : ShadowBlind (accessWrite sel n) :=
  .bind (.selectRegister _) fun _ => .bind (.writeData _) fun _ => .bind (.pulse _) fun _ => .releaseData

theorem construct (n : LinkSpeed) : ShadowBlind (construct n) :=
  .bind (.update fun _ _ _ => rfl) fun _ => .bind (.setSignals _ _) fun _ => .bind (.setSignals _ _) fun _ =>
    .bind (.setSignals _ _) fun _ => .bind (.update fun _ _ _ => rfl) fun _ => .bind (.setSignals _ _) fun _ =>
      .update fun _ _ _ => rfl

/-- The sequence of every command but RDSHADOW. -/
theorem commandBody {i : Instr} (hi : i ≠ .rdshadow) : ShadowBlind (commandBody i) := by
  have linked {β : Type} {x : Op β} {f : β → Op Response} (hx : ShadowBlind x) (hf : ∀ a, ShadowBlind (f a)) :
      ShadowBlind (do Machine.requireLink; let v ← x; f v) :=
    .bind .requireLink fun _ => .bind hx hf
  cases i with
  | rdshadow => exact absurd rfl hi
  | rddata => exact .bind .readData fun _ => .respond _ _
  | wrdata n => exact .bind (.writeData n) fun _ => .respond _ _
  | setsig m v => exact .bind (.setSignals m v) fun _ => .respond _ _
  | strobe m => exact .bind (.strobeSignal m) fun _ => .respond _ _
  | reldata => exact .bind .releaseData fun _ => .respond _ _
  | linkinit n =>
    simp only [Machine.commandBody]
    cases speedOf n with
    | none => exact .raise _
    | some speed => exact .bind (.construct speed) fun _ => .respond _ _
  | linkinitd => exact .bind (.view fun _ _ _ => rfl) fun _ => .bind (.construct _) fun _ => .respond _ _
  | datapresent | outputready | read => exact linked (.accessRead _) fun _ => .respond _ _
  | inten | intdis =>
    exact linked (.accessWrite _ _) fun _ => .bind (.accessWrite _ _) fun _ => .bind (.setSignals _ _) fun _ =>
      .respond _ _
  | write n => exact linked (.accessWrite _ n) fun _ => .bind (.setSignals _ _) fun _ => .respond _ _
  | reset => exact linked (.pulse _) fun _ => .respond _ _
  | resetlvl l => exact linked (.setSignals _ _) fun _ => .respond _ _

end ShadowBlind

/-- Two sequences that stayed together end their commands in states that differ at most in the shadow. -/
theorem SameButShadow.endCommand {r r' : EStateM.Result Status State Response} (h : SameButShadow r r') :
    ∃ c w, endCommand r' = (endCommand r).withShadow c w := by
  cases h with
  | ok a t c w => exact ⟨c, w, rfl⟩
  | error e t c w => exact ⟨c, w, rfl⟩

end Sys2Proof.Machine

namespace Sys2Proof

open Machine

/-- Settles O26: the two runs of the command's sequence stay together. -/
theorem shadowIsNeverAnOperand : Obligations.ShadowIsNeverAnOperand := by
  unfold Obligations.ShadowIsNeverAnOperand
  intro s i b v hi
  have together := ShadowBlind.commandBody hi s.start b v
  obtain ⟨c, w, ended⟩ := together.endCommand
  exact ⟨_, c, w, exec_eq i s, (exec_eq i _).trans (congrArg _ ended)⟩

end Sys2Proof
end

section
/-! The accesses the block performs (20_memory.md R60, R61): every primitive of a command adds to the trace only events
at the four registers the block uses, and the direction it writes is all inputs or all outputs. -/

namespace Sys2Proof.Machine

/-- The events of the accesses R60 lists, and of the hold (R13). -/
def NamedAccess (b : Board) (e : Event) : Prop :=
  e = b.wr .dirData b.raw.dirAllIn ∨ e = b.wr .dirData b.raw.dirAllOut ∨
  (∃ v, e = b.wr .olatData v) ∨ (∃ v, e = b.wr .olatCtrl v) ∨
  (∃ v, e = b.rd .inData v) ∨ (∃ v, e = b.rd .olatCtrl v) ∨
  (∃ r, (r = .dirData ∨ r = .olatData ∨ r = .inData ∨ r = .olatCtrl) ∧ e = b.failed r) ∨
  e = b.hold

namespace NamedAccess

variable (b : Board)

theorem dirAllIn : NamedAccess b (b.wr .dirData b.raw.dirAllIn) := .inl rfl
theorem dirAllOut : NamedAccess b (b.wr .dirData b.raw.dirAllOut) := .inr (.inl rfl)
theorem olatData (v : Byte) : NamedAccess b (b.wr .olatData v) := .inr (.inr (.inl ⟨v, rfl⟩))
theorem olatCtrl (v : Byte) : NamedAccess b (b.wr .olatCtrl v) := .inr (.inr (.inr (.inl ⟨v, rfl⟩)))
theorem readPins (v : Byte) : NamedAccess b (b.rd .inData v) := .inr (.inr (.inr (.inr (.inl ⟨v, rfl⟩))))
theorem readControl (v : Byte) : NamedAccess b (b.rd .olatCtrl v) :=
  .inr (.inr (.inr (.inr (.inr (.inl ⟨v, rfl⟩)))))
theorem failed {r : Reg} (hr : r = .dirData ∨ r = .olatData ∨ r = .inData ∨ r = .olatCtrl) :
    NamedAccess b (b.failed r) :=
  .inr (.inr (.inr (.inr (.inr (.inr (.inl ⟨r, hr, rfl⟩))))))
theorem hold : NamedAccess b b.hold := .inr (.inr (.inr (.inr (.inr (.inr (.inr rfl))))))

end NamedAccess

/-- t is s after events that are all accesses R60 lists, on the same board. -/
def AddsNamedAccesses (s t : State) : Prop :=
  t.board = s.board ∧ ∃ events, t.trace = s.trace ++ events ∧ ∀ e ∈ events, NamedAccess s.board e

namespace AddsNamedAccesses

theorem of_same_trace {s t : State} (ht : t.trace = s.trace) (hb : t.board = s.board) : AddsNamedAccesses s t :=
  ⟨hb, [], by simpa using ht, by simp⟩

theorem of_event {s t : State} {e : Event} (he : NamedAccess s.board e) (ht : t.trace = s.trace ++ [e])
    (hb : t.board = s.board) : AddsNamedAccesses s t :=
  ⟨hb, [e], ht, by simpa using he⟩

theorem trans {s t u : State} (first : AddsNamedAccesses s t) (second : AddsNamedAccesses t u) :
    AddsNamedAccesses s u := by
  obtain ⟨hb, l, hl, named⟩ := first
  obtain ⟨hb', k, hk, named'⟩ := second
  refine ⟨hb'.trans hb, l ++ k, by rw [hk, hl, List.append_assoc], fun e he => ?_⟩
  rcases List.mem_append.1 he with he | he
  · exact named e he
  · exact hb ▸ named' e he

theorem newEvents {s t : State} (h : AddsNamedAccesses s t) : ∀ e ∈ newEvents s t, NamedAccess s.board e := by
  obtain ⟨-, l, hl, named⟩ := h
  simpa [Machine.newEvents, hl] using named

end AddsNamedAccesses

theorem addsNamedAccesses_sequenced : Sequenced AddsNamedAccesses (fun _ => AddsNamedAccesses) :=
  seqBoth (fun _ => .of_same_trace rfl rfl) fun _ _ _ => .trans

theorem addsNamedAccesses_readControl : Both AddsNamedAccesses (memRead .olatCtrl) :=
  both_read _ (fun s => .of_event (.readControl _ _) (s.afterRead_trace _) (by simp))
    fun _ => .of_event (.failed _ (by simp)) rfl rfl

theorem addsNamedAccesses_readPins : Both AddsNamedAccesses (memRead .inData) :=
  both_read _ (fun s => .of_event (.readPins _ _) (s.afterRead_trace _) (by simp))
    fun _ => .of_event (.failed _ (by simp)) rfl rfl

theorem State.failedWrite_addsNamedAccesses (s : State) {r : Reg} (hr : r.written = true) (v : Byte) :
    AddsNamedAccesses s (s.failedWrite r v) :=
  .of_event (.failed _ (by cases r <;> simp [Reg.written] at hr ⊢)) (s.failedWrite_trace r v) (by simp)

theorem addsNamedAccesses_control (n : Byte) : Both AddsNamedAccesses (writeControl n) :=
  both_control n (fun s => .of_event (.olatCtrl _ n) (s.afterControl_trace n) (by simp))
    fun s => s.failedWrite_addsNamedAccesses rfl n

theorem addsNamedAccesses_primitives : Primitives AddsNamedAccesses (fun _ => AddsNamedAccesses) where
  seq := addsNamedAccesses_sequenced
  readControl := addsNamedAccesses_readControl
  readPins := addsNamedAccesses_readPins
  control := addsNamedAccesses_control
  release := both_release (fun s => .of_event (.dirAllIn _) s.afterRelease_trace (by simp))
    fun s => s.failedWrite_addsNamedAccesses rfl _
  write b := both_writeData addsNamedAccesses_sequenced.trans b
    (fun s => .of_event (.dirAllOut _) (s.afterDirection_trace _ _) (by simp))
    (fun s => s.failedWrite_addsNamedAccesses rfl _)
    (fun _ => .of_event (.olatData _ b) rfl rfl) fun s => s.failedWrite_addsNamedAccesses rfl b
  wait _ := .of_event (.hold _) rfl rfl
  construct := .construct addsNamedAccesses_sequenced
    (.setSignals addsNamedAccesses_sequenced addsNamedAccesses_readControl addsNamedAccesses_control)
    (fun _ _ => .of_same_trace rfl rfl) fun _ _ => .of_same_trace rfl rfl
  notConstructed s _ := addsNamedAccesses_sequenced.refl s
  invalid := addsNamedAccesses_sequenced.refl

/-- Every command, however it ends, adds only accesses R60 lists. -/
theorem exec_addsNamedAccesses {i : Instr} {s t : State} (run : exec i s = .next t) : AddsNamedAccesses s t := by
  obtain ⟨u, r, adds, rfl⟩ := addsNamedAccesses_primitives.exec_next run
  exact adds

end Sys2Proof.Machine

namespace Sys2Proof

open Machine

/-- Settles O10: a step that adds events runs a command, and its primitives add only accesses R60 lists. -/
theorem onlyNamedRegistersAccessed : Obligations.OnlyNamedRegistersAccessed := by
  unfold Obligations.OnlyNamedRegistersAccessed
  intro s t run
  have adds : AddsNamedAccesses s t := by
    rcases step_cases run with ⟨-, rfl⟩ | ⟨_, rest, i, -, -, run⟩ | ⟨_, rest, _, -, -, rfl⟩
    · exact .of_same_trace rfl rfl
    · exact exec_addsNamedAccesses (s := s.takeCommand rest) run
    · exact .of_same_trace rfl rfl
  exact adds.newEvents

end Sys2Proof
end

section
/-! A failed read of the control latch (20_memory.md R70; 60_exceptions.md R206; log 7): a command that begins with that
read ends there with the one Fail event, and the reference adapter keeps all it has. -/

namespace Sys2Proof.Machine

/-- The first transaction of the operation is a read of the control latch, and where it fails the operation ends. -/
def BeginsWithLatchRead {α : Type} (x : Op α) : Prop :=
  ∀ s, (s.drawAt 0).fails = true →
    ∃ u, x s = .error .transportError u ∧ u.trace = s.trace ++ [s.board.failed .olatCtrl]

namespace BeginsWithLatchRead

theorem latchRead : BeginsWithLatchRead (memRead .olatCtrl) :=
  fun _ hf => ⟨_, memRead_fails hf, rfl⟩

theorem bind {α β : Type} {x : Op α} {f : α → Op β} (hx : BeginsWithLatchRead x) :
    BeginsWithLatchRead (x >>= f) := by
  intro s hf
  obtain ⟨u, hu, trace⟩ := hx s hf
  exact ⟨u, bind_eq_error.2 (.inl hu), trace⟩

/-- A look at the state comes before no transaction. -/
theorem after_view {α β : Type} {f : State → α} {k : α → Op β} (hk : ∀ a, BeginsWithLatchRead (k a)) :
    BeginsWithLatchRead (viewState f >>= k) := fun s hf => hk (f s) s hf

theorem setSignals (m v : Byte) : BeginsWithLatchRead (setSignals m v) := .bind .latchRead

theorem strobeSignal (x : Signal) : BeginsWithLatchRead (strobeSignal (maskOf [x])) := by
  rw [strobeSignal_one]
  exact .bind .latchRead

theorem pulse (x : Signal) : BeginsWithLatchRead (pulse x) := .bind (.strobeSignal x)

theorem selectRegister (sel : Selector) : BeginsWithLatchRead (selectRegister sel) :=
  .after_view fun _ => .setSignals _ _

theorem accessRead (sel : Selector) : BeginsWithLatchRead (accessRead sel) := .bind (.selectRegister sel)

theorem accessWrite (sel : Selector) (b : Byte) : BeginsWithLatchRead (accessWrite sel b) :=
  .bind (.selectRegister sel)

/-- `LINK_READY` is cleared before the first transaction, outside the trace (R160). -/
theorem construct (n : LinkSpeed) : BeginsWithLatchRead (construct n) :=
  fun s hf => (setSignals (maskOf [.rst]) (maskOf [.rst])).bind (s.setLinkReady false) hf

end BeginsWithLatchRead

/-- The commands that begin with a read of the control latch: SETSIG, STROBE and the Link commands. -/
def readsLatchFirst (i : Instr) : Prop :=
  needsLink i = true ∨ constructs i = true ∨ (∃ m v, i = .setsig m v) ∨ (∃ m, i = .strobe m)

/-- Past its checks such a command ends at its first transaction where that fails. -/
theorem commandBody_latchReadFails {i : Instr} {s : State} (hi : readsLatchFirst i)
    (ready : needsLink i = true → s.linkReady = true) (argument : argumentOk i = true)
    (hf : (s.drawAt 0).fails = true) :
    ∃ u, commandBody i s = .error .transportError u ∧ u.trace = s.trace ++ [s.board.failed .olatCtrl] := by
  have linked {β : Type} {x : Op β} {f : β → Op Response} (hr : s.linkReady = true) (hx : BeginsWithLatchRead x) :
      ∃ u, (do requireLink; let v ← x; f v) s = .error .transportError u ∧
        u.trace = s.trace ++ [s.board.failed .olatCtrl] := by
    obtain ⟨u, hu, trace⟩ := (hx.bind (f := f)) s hf
    exact ⟨u, bind_eq_error.2 (.inr ⟨(), s, requireLink_ready hr, hu⟩), trace⟩
  cases i with
  | rddata | wrdata _ | reldata | rdshadow => simp [readsLatchFirst, needsLink, constructs] at hi
  | setsig m v => exact (BeginsWithLatchRead.setSignals m v).bind s hf
  | strobe m =>
    obtain ⟨x, hx⟩ := popcount_one (by simpa [argumentOk] using argument)
    simp only [commandBody, strobeSignal_named hx]
    exact (BeginsWithLatchRead.strobeSignal x).bind s hf
  | linkinit n =>
    cases speed : speedOf n with
    | none =>
      have refused := speedOf_eq_none.1 speed
      simp only [argumentOk, Bool.or_eq_true, beq_iff_eq] at argument
      tauto
    | some n =>
      simp only [commandBody, speed]
      exact (BeginsWithLatchRead.construct n).bind s hf
  | linkinitd => exact BeginsWithLatchRead.after_view (fun n => (BeginsWithLatchRead.construct n).bind) s hf
  | datapresent | outputready | read => exact linked (ready rfl) (.accessRead _)
  | inten | intdis | write _ => exact linked (ready rfl) (.accessWrite _ _)
  | reset => exact linked (ready rfl) (.pulse _)
  | resetlvl l => exact linked (ready rfl) (.setSignals _ _)

end Sys2Proof.Machine

namespace Sys2Proof

open Machine

/-- Settles O48: the one event of the command is the failed read, and with no latch write due the adapter takes it for
one. -/
theorem referenceAdapterKeptByFailedReads : Obligations.ReferenceAdapterKeptByFailedReads := by
  unfold Obligations.ReferenceAdapterKeptByFailedReads
  intro s i a hi ready argument hf noWriteDue
  obtain ⟨u, hu, trace⟩ := commandBody_latchReadFails (s := s.start) hi ready argument hf
  refine ⟨u.finish (errorResponse .transportError), by rw [exec_eq, hu]; rfl, rfl, ?_⟩
  rw [newEvents_finish (s := s) _ trace, adapterRun_cons, adapterRun_nil, State.start_board, adapterEvent_failed_olatCtrl,
    controlFails_of_read _ _ noWriteDue]

end Sys2Proof
end

section
/-! The reference adapter over a whole access (20_memory.md R70; 41_link_protocol.md R151 to R155; log 7): the levels of
the control words an access writes, and what the adapter has taken when the access is over. -/

namespace Sys2Proof

open Machine

/-- The events of ACCESS_WRITE(sel, v) up to and with the hold after chip select is asserted (R155). -/
def Board.assertEvents (b : Board) (sel : Selector) (v c : Byte) : List Event :=
  b.updateEvents c (b.selectWord sel c) ++ [b.wr .dirData b.raw.dirAllOut, b.wr .olatData v] ++
    b.updateEvents (b.selectWord sel c) (invertSignal b.sig .csn (b.selectWord sel c)) ++ [b.hold]

/-- The rest of the access releases chip select and makes the data port an input. -/
theorem Board.writeAccessEvents_eq (b : Board) (sel : Selector) (v c : Byte) : b.writeAccessEvents sel v c =
    b.assertEvents sel v c ++
      (b.updateEvents (invertSignal b.sig .csn (b.selectWord sel c)) (b.selectWord sel c) ++
        [b.hold, b.wr .dirData b.raw.dirAllIn]) := by
  simp [Board.writeAccessEvents, Board.pulseEvents, Board.assertEvents]

/-- The control word after SS_OFF (R152). -/
def Board.ssOffWord (b : Board) (c : Byte) : Byte := mergeLevels b.sig (maskOf [.ss]) 0 c

end Sys2Proof

namespace Sys2Proof.Machine

/-! ### The levels of the control words -/

section levels
variable (b : Board)

/-- R125: a named signal gets its level from V, every other keeps its own. -/
theorem wordLevel_mergeLevels (m v c : Byte) (x : Signal) : wordLevel b (mergeLevels b.sig m v c) x =
    if m.getLsbD x.id then v.getLsbD x.id else wordLevel b c x :=
  getLsbD_mergeLevels (fun _ _ => b.sig_injective) m v c x

/-- R130: only the strobed signal changes its level. -/
theorem wordLevel_invertSignal (x y : Signal) (c : Byte) :
    wordLevel b (invertSignal b.sig x c) y = (wordLevel b c y ^^ decide (x = y)) :=
  getLsbD_invertSignal (fun _ _ => b.sig_injective) x y c

/-- A signal named alone gets its level and no other changes. -/
theorem wordLevel_levelWord (x y : Signal) (level : Bool) (c : Byte) :
    wordLevel b (b.levelWord x level c) y = if y = x then level else wordLevel b c y := by
  rw [Board.levelWord, wordLevel_mergeLevels, getLsbD_maskOf, getLsbD_levelMask]
  by_cases h : y = x <;> simp [h]

/-- A SELECT leaves chip select alone (R151). -/
theorem wordLevel_selectWord_csn (sel : Selector) (c : Byte) :
    wordLevel b (b.selectWord sel c) .csn = wordLevel b c .csn := by
  rw [Board.selectWord, wordLevel_mergeLevels, selectMask, getLsbD_maskOf]
  simp

/-- A SELECT gives the select lines the levels of its selector (R31, R151). -/
theorem wordLevel_selectWord_lines (sel : Selector) (c : Byte) :
    wordLevel b (b.selectWord sel c) .rs1 = (b.raw.regsel.levels sel).rs1 ∧
    wordLevel b (b.selectWord sel c) .rs0 = (b.raw.regsel.levels sel).rs0 ∧
    wordLevel b (b.selectWord sel c) .rnw = (b.raw.regsel.levels sel).rnw := by
  simp only [Board.selectWord, wordLevel_mergeLevels, selectMask, getLsbD_maskOf, getLsbD_selectLevels]
  simp

/-- Under the default `REGSEL` a word with the select lines of SELECT(sel) decodes to that selector alone. -/
theorem accessTargets_of_selectWord {sel : Selector} {c w : Byte} (hr : b.raw.regsel = .standard)
    (kept : ∀ x, x ≠ .csn → wordLevel b w x = wordLevel b (b.selectWord sel c) x) :
    accessTargets b w = [sel] := by
  obtain ⟨rs1, rs0, rnw⟩ := wordLevel_selectWord_lines b sel c
  rw [hr] at rs1 rs0 rnw
  exact accessTargets_standard b hr ((kept _ (by decide)).trans rs1) ((kept _ (by decide)).trans rs0)
    ((kept _ (by decide)).trans rnw)

end levels

/-! ### The adapter between read-modify-writes -/

/-- The view with these values at the pins, and every failed latch write settled. -/
def AdapterView.atPins (a : AdapterView) (c : Byte) (direction latch : Option Byte) : AdapterView :=
  { a with control := some c, direction, latch, writeNext := false, doubt := none }

section pins
variable (b : Board) (a : AdapterView) {c n : Byte} {direction latch : Option Byte} {sel : Selector}

theorem adapterAt_eq_atPins (s : State) :
    adapterAt s = (adapterAt s).atPins s.latch (some (s.expReg .dirData)) (some (s.expReg .olatData)) := rfl

theorem takeByte_atPins (v : Option Byte) :
    takeByte (a.atPins c direction latch) v sel = (takeByte a v sel).atPins c direction latch := by
  cases sel <;> rfl

theorem drivenByte_atPins_output :
    drivenByte b (a.atPins c (some b.raw.dirAllOut) latch) = latch := by
  simp [drivenByte, AdapterView.atPins]

/-- A read-modify-write that does not raise CSN moves the control pins alone. -/
theorem adapterRun_atPins_kept (h : wordLevel b c .csn = true ∨ wordLevel b n .csn = false) :
    adapterRun b (a.atPins c direction latch) (b.updateEvents c n) = a.atPins n direction latch := by
  rw [adapterRun_updateEvents_kept b _ h, controlSeen_of_settled _ _ _ rfl]
  rfl

/-- One that raises CSN while the expander drives the pins hands its data latch to the register selected. -/
theorem adapterRun_atPins_rises (low : wordLevel b c .csn = false) (high : wordLevel b n .csn = true)
    (target : accessTargets b c = [sel]) :
    adapterRun b (a.atPins c (some b.raw.dirAllOut) latch) (b.updateEvents c n) =
      (takeByte a latch sel).atPins n (some b.raw.dirAllOut) latch := by
  rw [adapterRun_updateEvents_rises b _ rfl low high target, takeByte_atPins, drivenByte_atPins_output]
  rfl

/-- A write of the data direction reaches the view's direction alone. -/
theorem adapterEvent_atPins_dirData (v : Byte) :
    adapterEvent b (a.atPins c direction latch) (b.wr .dirData v) = a.atPins c (some v) latch := by
  rw [adapterEvent_wr_dirData]
  rfl

theorem adapterEvent_atPins_olatData (v : Byte) :
    adapterEvent b (a.atPins c direction latch) (b.wr .olatData v) = a.atPins c direction (some v) := by
  rw [adapterEvent_wr_olatData]
  rfl

end pins

/-! ### A write access -/

section write
variable (b : Board) (a : AdapterView) {c : Byte} {direction latch : Option Byte} (sel : Selector) (v : Byte)

/-- The word with chip select inverted, as the access asserts it. -/
theorem assertWord_low (high : wordLevel b c .csn = true) :
    wordLevel b (invertSignal b.sig .csn (b.selectWord sel c)) .csn = false := by
  simp [wordLevel_invertSignal, wordLevel_selectWord_csn, high]

theorem accessTargets_assertWord (hr : b.raw.regsel = .standard) :
    accessTargets b (invertSignal b.sig .csn (b.selectWord sel c)) = [sel] :=
  accessTargets_of_selectWord b (c := c) hr fun x hx => by simp [wordLevel_invertSignal, hx.symm]

/-- From chip select deasserted nothing is taken until the access releases it, and v is on the pins then. -/
theorem adapterRun_assertEvents (high : wordLevel b c .csn = true) :
    adapterRun b (a.atPins c direction latch) (b.assertEvents sel v c) =
      a.atPins (invertSignal b.sig .csn (b.selectWord sel c)) (some b.raw.dirAllOut) (some v) := by
  have selected : wordLevel b (b.selectWord sel c) .csn = true := by rw [wordLevel_selectWord_csn, high]
  simp only [Board.assertEvents, adapterRun_append, adapterRun_cons, adapterRun_nil, adapterEvent_hold,
    adapterRun_atPins_kept b a (.inl high), adapterRun_atPins_kept b a (.inl selected),
    adapterEvent_atPins_dirData, adapterEvent_atPins_olatData]

/-- A write access that completes from chip select deasserted hands v to its register, and nothing else. -/
theorem adapterRun_writeAccessEvents (hr : b.raw.regsel = .standard) (high : wordLevel b c .csn = true) :
    adapterRun b (a.atPins c direction latch) (b.writeAccessEvents sel v c) =
      (takeByte a (some v) sel).atPins (b.selectWord sel c) (some b.raw.dirAllIn) (some v) := by
  have selected : wordLevel b (b.selectWord sel c) .csn = true := by rw [wordLevel_selectWord_csn, high]
  rw [Board.writeAccessEvents_eq, adapterRun_append, adapterRun_assertEvents b a sel v high, adapterRun_append,
    adapterRun_atPins_rises b a (assertWord_low b sel high) selected (accessTargets_assertWord b sel hr)]
  simp only [adapterRun_cons, adapterRun_nil, adapterEvent_hold, adapterEvent_atPins_dirData]

/-- SS_OFF hands nothing over where chip select is deasserted (R152). -/
theorem adapterRun_ssOff (high : wordLevel b c .csn = true) :
    adapterRun b (a.atPins c direction latch) (b.updateEvents c (b.ssOffWord c)) =
      a.atPins (b.ssOffWord c) direction latch :=
  adapterRun_atPins_kept b a (.inl high)

end write


/-! ### The commands that write -/

/-- The byte that sets or clears the interrupt enable of a status register (R170, R172). -/
def enableByte (e : Bool) : Byte := if e then 0x02 else 0x00

/-- A status register after such a byte (R70). -/
theorem ofWrite_enableByte (e : Bool) : AdapterStatus.ofWrite (some (enableByte e)) = ⟨some e, true⟩ := by
  cases e <;> rfl

section commands
variable {s t : State} (hr : s.board.raw.regsel = .standard) (high : s.level .csn = true)
include hr high

/-- WRITE hands the adapter its byte and nothing else. -/
theorem adapterRun_of_write {b : Byte} (ok : AnsweredOk t) (run : exec (.write b) s = .next t) :
    ∃ c direction latch, adapterRun s.board (adapterAt s) (newEvents s t) =
      (takeByte (adapterAt s) (some b) .odrWr).atPins c direction latch := by
  obtain ⟨-, -, -, rfl⟩ := exec_answeredOk run ok
  have events : newEvents s ((completedState s.start (.write b)).finish ⟨.ok, completedData s.start (.write b)⟩) =
      s.board.writeAccessEvents .odrWr b s.latch ++ s.board.updateEvents (s.board.selectWord .odrWr s.latch)
        (s.board.ssOffWord (s.board.selectWord .odrWr s.latch)) :=
    newEvents_finish _ (by simp [completedState, Board.ssOffWord])
  rw [events, adapterRun_append, adapterAt_eq_atPins, adapterRun_writeAccessEvents _ _ _ _ hr high,
    adapterRun_ssOff _ _ (by rw [wordLevel_selectWord_csn]; exact high)]
  exact ⟨_, _, _, rfl⟩

/-- INTEN and INTDIS hand their byte to the ISR and then to the OSR, and nothing else. -/
theorem adapterRun_of_interrupts {i : Instr} {e : Bool} (ok : AnsweredOk t) (run : exec i s = .next t)
    (hi : i = .inten ∧ e = true ∨ i = .intdis ∧ e = false) :
    ∃ c direction latch, adapterRun s.board (adapterAt s) (newEvents s t) =
      (takeByte (takeByte (adapterAt s) (some (enableByte e)) .isrWr) (some (enableByte e)) .osrWr).atPins
        c direction latch := by
  obtain ⟨-, -, -, rfl⟩ := exec_answeredOk run ok
  have completed : completedState s.start i =
      ((s.start.afterAccessWrite .isrWr (enableByte e)).afterAccessWrite .osrWr (enableByte e)).afterSet
        (maskOf [.ss]) 0 := by
    rcases hi with ⟨rfl, rfl⟩ | ⟨rfl, rfl⟩ <;> rfl
  have events : newEvents s ((completedState s.start i).finish ⟨.ok, completedData s.start i⟩) =
      s.board.writeAccessEvents .isrWr (enableByte e) s.latch ++
        s.board.writeAccessEvents .osrWr (enableByte e) (s.board.selectWord .isrWr s.latch) ++
        s.board.updateEvents (s.board.selectWord .osrWr (s.board.selectWord .isrWr s.latch))
          (s.board.ssOffWord (s.board.selectWord .osrWr (s.board.selectWord .isrWr s.latch))) :=
    newEvents_finish _ (by simp [completed, Board.ssOffWord])
  have selected : wordLevel s.board (s.board.selectWord .isrWr s.latch) .csn = true := by
    rw [wordLevel_selectWord_csn]; exact high
  rw [events, adapterRun_append, adapterRun_append, adapterAt_eq_atPins,
    adapterRun_writeAccessEvents _ _ _ _ hr high, adapterRun_writeAccessEvents _ _ _ _ hr selected,
    adapterRun_ssOff _ _ (by rw [wordLevel_selectWord_csn, selected])]
  exact ⟨_, _, _, rfl⟩

end commands

end Sys2Proof.Machine

namespace Sys2Proof

open Machine

/-- Settles O45: each access hands its byte to its register when it releases chip select, and SS_OFF hands over
nothing. -/
theorem referenceAdapterTakesWrittenBytes : Obligations.ReferenceAdapterTakesWrittenBytes := by
  unfold Obligations.ReferenceAdapterTakesWrittenBytes
  intro s t hr high ok
  refine ⟨fun b run => ?_, fun i e hi run => ?_⟩
  · obtain ⟨c, direction, latch, view⟩ := adapterRun_of_write hr high ok run
    rw [view]
    exact ⟨rfl, rfl⟩
  · obtain ⟨c, direction, latch, view⟩ := adapterRun_of_interrupts hr high ok run hi
    rw [view]
    exact ⟨ofWrite_enableByte e, ofWrite_enableByte e, rfl, rfl⟩

end Sys2Proof
end

section
/-! The reference adapter's answers in a read access (20_memory.md R70; 41_link_protocol.md R154; log 7): the pins are
read once, at the sixth transaction, with the access's register on them. -/

namespace Sys2Proof

open Machine

/-- The control word of ACCESS_READ(sel) while chip select is asserted (R154). -/
def Board.readWord (b : Board) (sel : Selector) (c : Byte) : Byte :=
  b.levelWord .csn false (b.selectWord sel c)

/-- The events of ACCESS_READ(sel) before the read of the pins (R154). -/
def Board.beforePinsEvents (b : Board) (sel : Selector) (c : Byte) : List Event :=
  b.updateEvents c (b.selectWord sel c) ++ b.updateEvents (b.selectWord sel c) (b.readWord sel c) ++
    [b.wr .dirData b.raw.dirAllIn]

theorem Board.readAccessEvents_eq (b : Board) (sel : Selector) (c v : Byte) : b.readAccessEvents sel c v =
    b.beforePinsEvents sel c ++
      b.rd .inData v :: b.updateEvents (b.readWord sel c) (b.csOffWord (b.readWord sel c)) := by
  simp [Board.readAccessEvents, Board.beforePinsEvents, Board.readWord]

end Sys2Proof

namespace Sys2Proof.Machine

section answers
variable (b : Board) (a : AdapterView) (facts : Nat → AdapterFacts) {sel : Selector} {c v : Byte}

/-- A SELECT moves the control pins alone, after what its read of the latch settles. -/
theorem adapterRun_selectEvents : adapterRun b a (b.updateEvents c (b.selectWord sel c)) =
    (controlSeen b a c).atPins (b.selectWord sel c) (controlSeen b a c).direction (controlSeen b a c).latch := by
  have kept : wordLevel b c .csn = true ∨ wordLevel b (b.selectWord sel c) .csn = false := by
    rw [wordLevel_selectWord_csn]
    cases wordLevel b c .csn <;> simp
  rw [adapterRun_updateEvents_kept b a kept]
  rfl

theorem wordLevel_readWord_csn : wordLevel b (b.readWord sel c) .csn = false := by
  rw [Board.readWord, wordLevel_levelWord, if_pos rfl]

theorem accessTarget_readWord (hr : b.raw.regsel = .standard) : accessTarget b (b.readWord sel c) = some sel := by
  have target : accessTargets b (b.readWord sel c) = [sel] :=
    accessTargets_of_selectWord b (c := c) hr fun x hx => by rw [Board.readWord, wordLevel_levelWord, if_neg hx]
  rw [accessTarget, target]

/-- When the pins are read, the control pins select the register and the data port is an input. -/
theorem adapterRun_beforePinsEvents : adapterRun b a (b.beforePinsEvents sel c) =
    (controlSeen b a c).atPins (b.readWord sel c) (some b.raw.dirAllIn) (controlSeen b a c).latch := by
  rw [Board.beforePinsEvents, adapterRun_append, adapterRun_append, adapterRun_selectEvents,
    adapterRun_atPins_kept b _ (.inr (wordLevel_readWord_csn b))]
  exact adapterEvent_atPins_dirData b _ _

/-- The access's register is on the pins then. -/
theorem drivenRegister_readWord (hr : b.raw.regsel = .standard) {latch : Option Byte} :
    drivenRegister b (a.atPins (b.readWord sel c) (some b.raw.dirAllIn) latch) = some sel := by
  simp [drivenRegister, AdapterView.atPins, wordLevel_readWord_csn, accessTarget_readWord b hr]

/-- What a register of the adapter may answer where it is on the pins (R70). -/
def registerAnswers (a : AdapterView) (facts : AdapterFacts) (v : Byte) : Selector → Bool
  | .isrRd => a.inputStatus.written || v.getLsbD 0 == facts.byteWaiting
  | .osrRd => a.outputStatus.written || v.getLsbD 0 == facts.canTake
  | .idrRd | .odrWr | .isrWr | .osrWr => true

theorem adapterAnswers_readWord (hr : b.raw.regsel = .standard) (f : AdapterFacts) {latch : Option Byte} :
    adapterAnswers b (a.atPins (b.readWord sel c) (some b.raw.dirAllIn) latch) f v =
      registerAnswers a f v sel := by
  rw [adapterAnswers, drivenRegister_readWord b a hr]
  cases sel <;> rfl

theorem adapterAdmits_beforePinsEvents (k : Nat) :
    adapterAdmits b facts k a (b.beforePinsEvents sel c) = true := by
  simp [Board.beforePinsEvents, adapterAdmits_append, adapterAdmits_updateEvents, adapterAdmits, eventAdmitted,
    Board.wr]

theorem eventAdmitted_rd_inData (f : AdapterFacts) :
    eventAdmitted b a f (b.rd .inData v) = adapterAnswers b a f v := by
  simp [eventAdmitted, Board.rd]

/-- A read access is admitted exactly where its register may answer what the sixth transaction read. -/
theorem adapterAdmits_readAccessEvents (hr : b.raw.regsel = .standard) :
    adapterAdmits b facts 0 a (b.readAccessEvents sel c v) =
      registerAnswers (controlSeen b a c) (facts 5) v sel := by
  have length : (b.beforePinsEvents sel c).length = 5 := rfl
  rw [Board.readAccessEvents_eq, adapterAdmits_append, adapterAdmits_beforePinsEvents,
    adapterRun_beforePinsEvents, length, Bool.true_and, adapterAdmits, adapterAdmits_updateEvents, Bool.and_true,
    eventAdmitted_rd_inData, adapterAnswers_readWord b _ hr]

/-- A command that is one read access and answers OK. -/
theorem adapterAdmits_of_read {s t : State} {i : Instr} (hr : s.board.raw.regsel = .standard) (ok : AnsweredOk t)
    (run : exec i s = .next t) (access : ∀ u, completedState u i = u.afterAccessRead sel) :
    adapterAdmits s.board facts 0 a (newEvents s t) =
      registerAnswers (controlSeen s.board a s.latch) (facts 5) (s.drawAt 5).pins sel := by
  obtain ⟨-, -, -, rfl⟩ := exec_answeredOk run ok
  have events : newEvents s ((completedState s.start i).finish ⟨.ok, completedData s.start i⟩) =
      s.board.readAccessEvents sel s.latch (s.drawAt 5).pins :=
    newEvents_finish _ (by rw [access, State.afterAccessRead_trace]; rfl)
  rw [events, adapterAdmits_readAccessEvents s.board a facts hr]

end answers

/-- A poll's response says a fact exactly where bit 0 of the byte read has its value (R165, R167). -/
theorem pollAnswer_iff (written fact : Bool) (v : Byte) : (written || v.getLsbD 0 == fact) = true ↔
    written = true ∨
      some (⟨.ok, boolData (statusBit v)⟩ : Response) = some ⟨.ok, if fact then 0x01 else 0x00⟩ := by
  unfold statusBit boolData
  cases v.getLsbD 0 <;> cases fact <;> simp

end Sys2Proof.Machine

namespace Sys2Proof

open Machine

/-- Settles O46: the access's register is on the pins when they are read, and the rest of the access holds no answer
of the adapter. -/
theorem referenceAdapterAnswersPolls : Obligations.ReferenceAdapterAnswersPolls := by
  unfold Obligations.ReferenceAdapterAnswersPolls
  intro s t a facts hr ok
  simp only [adapterEvent_rd_olatCtrl]
  have response {i : Instr} (run : exec i s = .next t) : t.resp = some ⟨.ok, completedData s.start i⟩ := by
    obtain ⟨-, -, -, rfl⟩ := exec_answeredOk run ok
    rfl
  refine ⟨fun run => ?_, fun run => ?_, fun run => ?_⟩
  · rw [adapterAdmits_of_read (sel := .isrRd) a facts hr ok run fun _ => rfl, response run]
    exact pollAnswer_iff _ _ _
  · rw [adapterAdmits_of_read (sel := .osrRd) a facts hr ok run fun _ => rfl, response run]
    exact pollAnswer_iff _ _ _
  · rw [adapterAdmits_of_read (sel := .idrRd) a facts hr ok run fun _ => rfl, registerAnswers]

end Sys2Proof
end

section
/-! A write that raises chip select and fails (20_memory.md R62, R70; 60_exceptions.md R206; log 7): where ACCESS_WRITE
ends at its eighth transaction, and what the next read of the latch tells the reference adapter. -/

namespace Sys2Proof.Machine

/-! ### Where the command ends -/

/-- In ACCESS_WRITE(sel, v), with chip select asserted and v on the data pins. -/
def State.afterAssert (s : State) (sel : Selector) (v : Byte) : State :=
  ((s.afterSelect sel).afterWriteData v).afterStrobe .csn

/-- ACCESS_WRITE(sel, v) ended at the write that raises chip select. -/
def State.releaseFailed (s : State) (sel : Selector) (v : Byte) : State :=
  ((s.afterAssert sel v).afterRead .olatCtrl).failedWrite .olatCtrl (s.board.selectWord sel s.latch)

section release
variable (s : State) (sel : Selector) (v : Byte)

@[simp] theorem State.afterAssert_board : (s.afterAssert sel v).board = s.board := by simp [State.afterAssert]
@[simp] theorem State.afterAssert_latch :
    (s.afterAssert sel v).latch = invertSignal s.board.sig .csn (s.board.selectWord sel s.latch) := by
  simp [State.afterAssert]
@[simp] theorem State.afterAssert_trace :
    (s.afterAssert sel v).trace = s.trace ++ s.board.assertEvents sel v s.latch := by
  simp [State.afterAssert, Board.assertEvents]
@[simp] theorem State.afterAssert_drawAt (k : Nat) : (s.afterAssert sel v).drawAt k = s.drawAt (k + 6) := by
  simp [State.afterAssert]

/-- The failed write has landed, and chip select is deasserted, or it has not (R206). -/
theorem State.releaseFailed_latch : (s.releaseFailed sel v).latch =
    if (s.drawAt 7).lands then s.board.selectWord sel s.latch
    else invertSignal s.board.sig .csn (s.board.selectWord sel s.latch) := by
  have failed := ((s.afterAssert sel v).afterRead .olatCtrl).failedWrite_expReg .olatCtrl
    (s.board.selectWord sel s.latch)
  rw [State.afterRead_drawAt, State.afterAssert_drawAt] at failed
  refine failed.trans ?_
  congr 1
  exact (State.afterRead_latch _ _).trans (s.afterAssert_latch sel v)

theorem State.releaseFailed_trace : (s.releaseFailed sel v).trace =
    s.trace ++ (s.board.assertEvents sel v s.latch ++
      [s.board.rd .olatCtrl (invertSignal s.board.sig .csn (s.board.selectWord sel s.latch)),
        s.board.failed .olatCtrl]) := by
  simp [State.releaseFailed]

end release

/-- A strobe whose write fails, after its read of the latch. -/
theorem strobeSignal_writeFails {s : State} {x : Signal} (h0 : (s.drawAt 0).fails = false)
    (h1 : (s.drawAt 1).fails = true) : strobeSignal (maskOf [x]) s =
      .error .transportError ((s.afterRead .olatCtrl).failedWrite .olatCtrl (invertSignal s.board.sig x s.latch)) := by
  have write (n : Byte) : memWrite .olatCtrl n (s.afterRead .olatCtrl) = _ := memWrite_fails (by simpa using h1)
  rw [strobeSignal_one]
  simp [memRead_quiet h0, writeControl, write]

/-- ACCESS_WRITE ends where its eighth transaction is the first that fails. -/
theorem accessWrite_releaseFails {s : State} (sel : Selector) (v : Byte) (q : s.quiet 7)
    (hf : (s.drawAt 7).fails = true) :
    accessWrite sel v s = .error .transportError (s.releaseFailed sel v) := by
  have asserted := strobeSignal_quiet (s := (s.afterSelect sel).afterWriteData v) (x := .csn)
    fun k hk => by simpa using q (k + 4) (by omega)
  have released := strobeSignal_writeFails (s := s.afterAssert sel v) (x := .csn) (by simpa using q 6 (by omega))
    (by simpa using hf)
  rw [State.afterAssert_board, State.afterAssert_latch, invertSignal_twice] at released
  have select : selectRegister sel s = _ := selectRegister_quiet fun k hk => q k (by omega)
  have data : writeData v (s.afterSelect sel) = _ := writeData_quiet fun k hk => by simpa using q (k + 2) (by omega)
  exact bind_eq_error.2 (.inr ⟨(), _, select, bind_eq_error.2 (.inr ⟨(), _, data,
    bind_eq_error.2 (.inl (bind_eq_error.2 (.inr ⟨(), _, asserted, released⟩)))⟩)⟩)

/-- A command that begins with ACCESS_WRITE(sel, v) ends there. -/
theorem exec_releaseFails {s : State} {i : Instr} {sel : Selector} {v : Byte} {rest : Unit → Op Response}
    (body : commandBody i = do requireLink; accessWrite sel v >>= rest) (ready : s.linkReady = true)
    (q : s.quiet 7) (hf : (s.drawAt 7).fails = true) :
    exec i s = .next ((s.start.releaseFailed sel v).finish (errorResponse .transportError)) := by
  have ends : commandBody i s.start = .error .transportError (s.start.releaseFailed sel v) := by
    rw [body]
    exact bind_eq_error.2 (.inr ⟨(), _, requireLink_ready ready,
      bind_eq_error.2 (.inl (accessWrite_releaseFails sel v q hf))⟩)
  rw [exec_eq, ends]
  rfl

/-! ### What the adapter has -/

/-- The view after a completed read of the latch: the pins are known, and a write of the latch is due. -/
def AdapterView.latchRead (a : AdapterView) (c : Byte) (direction latch : Option Byte) : AdapterView :=
  { a.atPins c direction latch with writeNext := true }

/-- The view where the write that raises chip select has failed and no read has settled it. -/
def AdapterView.unsettled (b : Board) (a : AdapterView) (sel : Selector) (v c : Byte) : AdapterView :=
  { a.atPins c (some b.raw.dirAllOut) (some v) with
    control := none, doubt := some ⟨invertSignal b.sig .csn (b.selectWord sel c), some v⟩ }

section view
variable (b : Board) (a : AdapterView) {c : Byte} {direction latch : Option Byte} (sel : Selector) (v : Byte)

theorem adapterRun_releaseFailed (high : wordLevel b c .csn = true) :
    adapterRun b (a.atPins c direction latch) (b.assertEvents sel v c ++
      [b.rd .olatCtrl (invertSignal b.sig .csn (b.selectWord sel c)), b.failed .olatCtrl]) =
      a.unsettled b sel v c := by
  rw [adapterRun_append, adapterRun_assertEvents b a sel v high, adapterRun_cons, adapterRun_cons, adapterRun_nil,
    adapterEvent_rd_olatCtrl, controlSeen_of_settled b _ _ rfl, adapterEvent_failed_olatCtrl,
    controlFails_of_write b _ rfl rfl]
  simp [AdapterView.unsettled, AdapterView.atPins, drivenByte]

/-- A read that answers the old word tells that nothing was taken (R62). -/
theorem controlSeen_unsettled_lost (high : wordLevel b c .csn = true) :
    controlSeen b (a.unsettled b sel v c) (invertSignal b.sig .csn (b.selectWord sel c)) =
      a.latchRead (invertSignal b.sig .csn (b.selectWord sel c)) (some b.raw.dirAllOut) (some v) := by
  simp only [controlSeen, AdapterView.unsettled, controlEdge_to_low b _ (assertWord_low b sel high)]
  rfl

/-- A read that answers the new word tells that the register has taken v (R62). -/
theorem controlSeen_unsettled_landed (hr : b.raw.regsel = .standard) (high : wordLevel b c .csn = true) :
    controlSeen b (a.unsettled b sel v c) (b.selectWord sel c) =
      (takeByte a (some v) sel).latchRead (b.selectWord sel c) (some b.raw.dirAllOut) (some v) := by
  have selected : wordLevel b (b.selectWord sel c) .csn = true := by rw [wordLevel_selectWord_csn, high]
  simp only [controlSeen, AdapterView.unsettled,
    controlEdge_rises b _ (assertWord_low b sel high) selected (accessTargets_assertWord b sel hr)]
  cases sel <;> rfl

end view

/-- The next read of the latch settles the failed write: the register has taken v exactly where it landed. -/
theorem adapter_settles_failedRelease {s : State} (hr : s.board.raw.regsel = .standard)
    (high : s.level .csn = true) (sel : Selector) (v : Byte) :
    let t := (s.start.releaseFailed sel v).finish (errorResponse .transportError)
    let a := adapterRun s.board (adapterAt s) (newEvents s t)
    a.control = none ∧ ∃ c direction latch, adapterEvent s.board a (s.board.rd .olatCtrl t.latch) =
      (if (s.drawAt 7).lands then takeByte (adapterAt s) (some v) sel else adapterAt s).latchRead
        c direction latch := by
  intro t a
  have view : a = (adapterAt s).unsettled s.board sel v s.latch := by
    simp only [a, t]
    rw [newEvents_finish (s := s) _ (s.start.releaseFailed_trace sel v), adapterAt_eq_atPins]
    exact adapterRun_releaseFailed s.board (adapterAt s) sel v high
  have latch : t.latch = if (s.drawAt 7).lands then s.board.selectWord sel s.latch
      else invertSignal s.board.sig .csn (s.board.selectWord sel s.latch) := s.start.releaseFailed_latch sel v
  rw [view, latch, adapterEvent_rd_olatCtrl]
  refine ⟨rfl, ?_⟩
  cases (s.drawAt 7).lands
  · exact ⟨_, _, _, controlSeen_unsettled_lost s.board (adapterAt s) sel v high⟩
  · exact ⟨_, _, _, controlSeen_unsettled_landed s.board (adapterAt s) sel v hr high⟩

end Sys2Proof.Machine

namespace Sys2Proof

open Machine

/-- Settles O47: the command ends at the failed release, and the next latch read settles it. -/
theorem referenceAdapterAfterFailedRelease : Obligations.ReferenceAdapterAfterFailedRelease := by
  unfold Obligations.ReferenceAdapterAfterFailedRelease
  intro s hr high ready q hf
  refine ⟨fun i e hi => ?_, fun b => ?_⟩
  · have run : exec i s =
        .next ((s.start.releaseFailed .isrWr (enableByte e)).finish (errorResponse .transportError)) := by
      rcases hi with ⟨rfl, rfl⟩ | ⟨rfl, rfl⟩ <;> exact exec_releaseFails rfl ready q hf
    obtain ⟨unknown, c, direction, latch, settled⟩ := adapter_settles_failedRelease hr high .isrWr (enableByte e)
    refine ⟨_, run, rfl, unknown, ?_⟩
    rw [settled]
    cases (s.drawAt 7).lands
    · exact ⟨rfl, rfl, rfl, rfl⟩
    · exact ⟨ofWrite_enableByte e, rfl, rfl, rfl⟩
  · obtain ⟨unknown, c, direction, latch, settled⟩ := adapter_settles_failedRelease hr high .odrWr b
    refine ⟨_, exec_releaseFails rfl ready q hf, rfl, unknown, ?_⟩
    rw [settled]
    cases (s.drawAt 7).lands <;> exact ⟨rfl, rfl, rfl, rfl⟩

end Sys2Proof
end

section
/-! The round trip (30_encoding.md R90 to R95, R97, R99): a word decodes to a command exactly where it is that
command's word. Each format is treated once, for every command of it. -/

namespace Sys2Proof

/-- A command's word decodes to the command: its must-be-zero fields are 0 and its operands stand in their fields. -/
@[simp] theorem decode_encode (i : Instr) : decode (encode i) = .ok i := by
  cases i with
  | rddata | reldata | rdshadow | linkinitd | datapresent | outputready | inten | intdis | read | reset =>
    simp [encode, decode, decodeN]
  | wrdata _ | linkinit _ | write _ => simp [encode, decode, decodeB]
  | setsig _ _ => simp [encode, decode, decodeMV]
  | strobe _ => simp [encode, decode, decodeM]
  | resetlvl l => cases l <;> simp [encode, decode, decodeL]

/-! ### What each format decodes is what the encoder packs -/

section formats
variable {w : CmdWord} {i : Instr} {op : BitVec 4} (sub : subField w = 0) (code : opField w = op)
include sub code

theorem encode_of_decodeN {j : Instr} (packed : encode j = packWord op 0 0 0) (h : decodeN j w = .ok i) :
    encode i = w := by
  obtain ⟨mask, values, byte, rfl⟩ := decodeN_ok.1 h
  simpa [packed, code, mask, values, byte] using pack_fields w sub

theorem encode_of_decodeB {f : Byte → Instr} (packed : ∀ b, encode (f b) = packWord op 0 0 b)
    (h : decodeB f w = .ok i) : encode i = w := by
  obtain ⟨mask, values, rfl⟩ := decodeB_ok.1 h
  simpa [packed, code, mask, values] using pack_fields w sub

theorem encode_of_decodeMV {f : Byte → Byte → Instr} (packed : ∀ m v, encode (f m v) = packWord op m v 0)
    (h : decodeMV f w = .ok i) : encode i = w := by
  obtain ⟨byte, rfl⟩ := decodeMV_ok.1 h
  simpa [packed, code, byte] using pack_fields w sub

theorem encode_of_decodeM {f : Byte → Instr} (packed : ∀ m, encode (f m) = packWord op m 0 0)
    (h : decodeM f w = .ok i) : encode i = w := by
  obtain ⟨values, byte, rfl⟩ := decodeM_ok.1 h
  simpa [packed, code, values, byte] using pack_fields w sub

theorem encode_of_decodeL {f : Bool → Instr} (packed : ∀ l, encode (f l) = packWord op 0 0 (if l then 1 else 0))
    (h : decodeL f w = .ok i) : encode i = w := by
  obtain ⟨mask, values, l, byte, rfl⟩ := decodeL_ok.1 h
  simpa [packed, code, mask, values, byte] using pack_fields w sub

end formats

/-- A legal word has SUB 0, and the format of its opcode fixes every other bit. -/
theorem encode_of_decode {w : CmdWord} {i : Instr} (h : decode w = .ok i) : encode i = w := by
  obtain ⟨sub, ⟨code, h⟩ | ⟨code, h⟩ | ⟨code, h⟩ | ⟨code, h⟩ | ⟨code, h⟩ | ⟨code, h⟩ | ⟨code, h⟩ | ⟨code, h⟩ |
    ⟨code, h⟩ | ⟨code, h⟩ | ⟨code, h⟩ | ⟨code, h⟩ | ⟨code, h⟩ | ⟨code, h⟩ | ⟨code, h⟩ | ⟨code, h⟩⟩ := decode_ok h
  · exact encode_of_decodeN sub code rfl h
  · exact encode_of_decodeB sub code (fun _ => rfl) h
  · exact encode_of_decodeMV sub code (fun _ _ => rfl) h
  · exact encode_of_decodeM sub code (fun _ => rfl) h
  · exact encode_of_decodeN sub code rfl h
  · exact encode_of_decodeN sub code rfl h
  · exact encode_of_decodeB sub code (fun _ => rfl) h
  · exact encode_of_decodeN sub code rfl h
  · exact encode_of_decodeN sub code rfl h
  · exact encode_of_decodeN sub code rfl h
  · exact encode_of_decodeN sub code rfl h
  · exact encode_of_decodeN sub code rfl h
  · exact encode_of_decodeB sub code (fun _ => rfl) h
  · exact encode_of_decodeN sub code rfl h
  · exact encode_of_decodeN sub code rfl h
  · exact encode_of_decodeL sub code (fun _ => rfl) h

/-- Settles O12, by the lemma over the command's constructors. -/
theorem decodeOfEncode : Obligations.DecodeOfEncode := decode_encode

/-- Settles O13, by the lemma over the formats of the sixteen opcodes. -/
theorem encodeOfDecode : Obligations.EncodeOfDecode := fun _ _ => encode_of_decode

/-- Settles O15, by running the decoder on the six words. -/
theorem exampleWordsDecode : Obligations.ExampleWordsDecode := by
  unfold Obligations.ExampleWordsDecode
  decide

end Sys2Proof
end

section
/-! The opcode table (30_encoding.md R97, R102) against the decoder: the words a row accepts are the words of the
row's command. -/

namespace Sys2Proof

open Machine

/-- Every command's word is accepted by the row with its mnemonic. -/
theorem encodesItsRow (i : Instr) : Laws.EncodesItsRow.Statement i := by
  cases i with
  | rddata => exact Laws.EncodesItsRow.rddata
  | wrdata b => exact Laws.EncodesItsRow.wrdata b
  | setsig m v => exact Laws.EncodesItsRow.setsig m v
  | strobe m => exact Laws.EncodesItsRow.strobe m
  | reldata => exact Laws.EncodesItsRow.reldata
  | rdshadow => exact Laws.EncodesItsRow.rdshadow
  | linkinit b => exact Laws.EncodesItsRow.linkinit b
  | linkinitd => exact Laws.EncodesItsRow.linkinitd
  | datapresent => exact Laws.EncodesItsRow.datapresent
  | outputready => exact Laws.EncodesItsRow.outputready
  | inten => exact Laws.EncodesItsRow.inten
  | intdis => exact Laws.EncodesItsRow.intdis
  | write b => exact Laws.EncodesItsRow.write b
  | read => exact Laws.EncodesItsRow.read
  | reset => exact Laws.EncodesItsRow.reset
  | resetlvl l => exact Laws.EncodesItsRow.resetlvl l

/-- Every word the row accepts is the word of a command with the row's mnemonic. -/
def OpRow.AcceptsOnlyCommands (r : OpRow) : Prop :=
  ∀ w, r.accepts w = true → ∃ i, encode i = w ∧ Sys2Proof.mnemonic i = r.mnemonic

/-! ### The rows by the formats of R102: N, B, MV, M and L -/

section rows
variable {w mask pattern : CmdWord} {name : String} {op : BitVec 4}

/-- Bits that the mask covers with ones hold the pattern. -/
theorem extractLsb'_of_masked (h : w &&& mask = pattern) (k n : Nat)
    (covered : mask.extractLsb' k n = BitVec.allOnes n) : w.extractLsb' k n = pattern.extractLsb' k n := by
  rw [← h, BitVec.extractLsb'_and, covered, BitVec.and_allOnes]

/-- Where the mask covers OP and SUB, the other three fields make the word. -/
theorem eq_pack_of_masked (h : w &&& mask = packWord op 0 0 0)
    (opCovered : opField mask = BitVec.allOnes 4) (subCovered : subField mask = BitVec.allOnes 4) :
    packWord op (maskField w) (valueField w) (byteField w) = w := by
  have code : opField w = op := (extractLsb'_of_masked h 28 4 opCovered).trans (opField_pack op 0 0 0)
  have sub : subField w = 0 := (extractLsb'_of_masked h 24 4 subCovered).trans (subField_pack op 0 0 0)
  rw [← code]
  exact pack_fields w sub

/-- The mask of format N leaves no bit free. -/
theorem acceptsOnlyCommands_N (i : Instr) : OpRow.AcceptsOnlyCommands ⟨mnemonic i, 0xFFFFFFFF, encode i⟩ := by
  intro w h
  have masked : w &&& BitVec.allOnes 32 = encode i := beq_iff_eq.1 h
  exact ⟨i, by rw [← masked, BitVec.and_allOnes], rfl⟩

/-- The mask of format B leaves B free. -/
theorem acceptsOnlyCommands_B {f : Byte → Instr} (packed : ∀ b, encode (f b) = packWord op 0 0 b)
    (named : ∀ b, mnemonic (f b) = name) :
    OpRow.AcceptsOnlyCommands ⟨name, 0xFFFFFF00, packWord op 0 0 0⟩ := by
  intro w h
  have masked : w &&& 0xFFFFFF00 = packWord op 0 0 0 := beq_iff_eq.1 h
  have m : maskField w = 0 := (extractLsb'_of_masked masked 16 8 (by decide)).trans (maskField_pack op 0 0 0)
  have v : valueField w = 0 := (extractLsb'_of_masked masked 8 8 (by decide)).trans (valueField_pack op 0 0 0)
  refine ⟨f (byteField w), ?_, named _⟩
  simpa [packed, m, v] using eq_pack_of_masked masked (by decide) (by decide)

/-- The mask of format MV leaves M and V free. -/
theorem acceptsOnlyCommands_MV {f : Byte → Byte → Instr} (packed : ∀ m v, encode (f m v) = packWord op m v 0)
    (named : ∀ m v, mnemonic (f m v) = name) :
    OpRow.AcceptsOnlyCommands ⟨name, 0xFF0000FF, packWord op 0 0 0⟩ := by
  intro w h
  have masked : w &&& 0xFF0000FF = packWord op 0 0 0 := beq_iff_eq.1 h
  have b : byteField w = 0 := (extractLsb'_of_masked masked 0 8 (by decide)).trans (byteField_pack op 0 0 0)
  refine ⟨f (maskField w) (valueField w), ?_, named _ _⟩
  simpa [packed, b] using eq_pack_of_masked masked (by decide) (by decide)

/-- The mask of format M leaves M free. -/
theorem acceptsOnlyCommands_M {f : Byte → Instr} (packed : ∀ m, encode (f m) = packWord op m 0 0)
    (named : ∀ m, mnemonic (f m) = name) :
    OpRow.AcceptsOnlyCommands ⟨name, 0xFF00FFFF, packWord op 0 0 0⟩ := by
  intro w h
  have masked : w &&& 0xFF00FFFF = packWord op 0 0 0 := beq_iff_eq.1 h
  have v : valueField w = 0 := (extractLsb'_of_masked masked 8 8 (by decide)).trans (valueField_pack op 0 0 0)
  have b : byteField w = 0 := (extractLsb'_of_masked masked 0 8 (by decide)).trans (byteField_pack op 0 0 0)
  refine ⟨f (maskField w), ?_, named _⟩
  simpa [packed, v, b] using eq_pack_of_masked masked (by decide) (by decide)

/-- The mask of format L leaves B[0] free, so B is 0 or 1. -/
theorem acceptsOnlyCommands_L {f : Bool → Instr}
    (packed : ∀ l, encode (f l) = packWord op 0 0 (if l then 1 else 0)) (named : ∀ l, mnemonic (f l) = name) :
    OpRow.AcceptsOnlyCommands ⟨name, 0xFFFFFFFE, packWord op 0 0 0⟩ := by
  intro w h
  have masked : w &&& 0xFFFFFFFE = packWord op 0 0 0 := beq_iff_eq.1 h
  have m : maskField w = 0 := (extractLsb'_of_masked masked 16 8 (by decide)).trans (maskField_pack op 0 0 0)
  have v : valueField w = 0 := (extractLsb'_of_masked masked 8 8 (by decide)).trans (valueField_pack op 0 0 0)
  have high : byteField w &&& 0xFE = 0 :=
    (byteField_and w 0xFFFFFFFE).symm.trans ((congrArg byteField masked).trans (byteField_pack op 0 0 0))
  have level : ∃ l : Bool, byteField w = if l then 1 else 0 := by
    generalize byteField w = b at high
    decide +revert
  obtain ⟨l, b⟩ := level
  refine ⟨f l, ?_, named _⟩
  simpa [packed, m, v, b] using eq_pack_of_masked masked (by decide) (by decide)

end rows

/-- Row by row: the mask is that of the command's format, and the pattern is the command's word at operands 0. -/
theorem opcodeTable_acceptsOnlyCommands : ∀ r ∈ opcodeTable, r.AcceptsOnlyCommands := by
  simp only [opcodeTable, List.forall_mem_append, List.forall_mem_cons]
  exact
    ⟨⟨acceptsOnlyCommands_N .rddata,
      acceptsOnlyCommands_B (op := 0x1) (f := .wrdata) (fun _ => rfl) fun _ => rfl,
      acceptsOnlyCommands_MV (op := 0x2) (f := .setsig) (fun _ _ => rfl) fun _ _ => rfl,
      acceptsOnlyCommands_M (op := 0x3) (f := .strobe) (fun _ => rfl) fun _ => rfl,
      acceptsOnlyCommands_N .reldata,
      acceptsOnlyCommands_N .rdshadow,
      acceptsOnlyCommands_B (op := 0x6) (f := .linkinit) (fun _ => rfl) fun _ => rfl,
      acceptsOnlyCommands_N .linkinitd,
      List.forall_mem_nil _⟩,
      acceptsOnlyCommands_N .datapresent,
      acceptsOnlyCommands_N .outputready,
      acceptsOnlyCommands_N .inten,
      acceptsOnlyCommands_N .intdis,
      acceptsOnlyCommands_B (op := 0xC) (f := .write) (fun _ => rfl) fun _ => rfl,
      acceptsOnlyCommands_N .read,
      acceptsOnlyCommands_N .reset,
      acceptsOnlyCommands_L (op := 0xF) (f := .resetlvl) (fun _ => rfl) fun _ => rfl,
      List.forall_mem_nil _⟩

/-- A word that decodes is a command's word, which the command's row accepts. -/
theorem exists_row_of_decode {w : CmdWord} {i : Instr} (h : decode w = .ok i) :
    ∃ r ∈ opcodeTable, r.accepts w = true ∧ r.mnemonic = mnemonic i := by
  obtain ⟨r, listed, named, accepted⟩ := encodesItsRow i
  rw [encode_of_decode h] at accepted
  exact ⟨r, listed, accepted, named⟩

/-- A word no row accepts is illegal. -/
theorem decode_error_of_no_row {w : CmdWord} (rejected : ∀ r ∈ opcodeTable, r.accepts w = false) :
    ∃ e, decode w = .error e := by
  cases h : decode w with
  | error e => exact ⟨e, rfl⟩
  | ok i =>
    obtain ⟨r, listed, accepted, -⟩ := exists_row_of_decode h
    simp [rejected r listed] at accepted

/-- An illegal command changes nothing but the response (R97). -/
theorem illegal_eq_answered (s : State) : s.illegal = s.answered ⟨.illegalCommand, 0x00⟩ := rfl

/-- An idle block answers an illegal word without a primitive (R97, R201). -/
theorem step_of_decode_error {s : State} {w : CmdWord} {rest : List CmdWord} {e : DecodeError}
    (idle : s.busy = false) (issued : s.pending = w :: rest) (h : decode w = .error e) :
    step s = .next ((s.takeCommand rest).answered ⟨.illegalCommand, 0x00⟩) := by
  simp [step, idle, issued, h, illegal_eq_answered]

/-- Settles O14: the encoder's words are the legal ones, and they are the ones the rows accept. -/
theorem legalWordsAreTableRows : Obligations.LegalWordsAreTableRows := by
  unfold Obligations.LegalWordsAreTableRows
  refine ⟨fun w i => exists_row_of_decode, fun w r listed accepted => ?_, fun s w rest idle issued rejected => ?_⟩
  · obtain ⟨i, rfl, named⟩ := opcodeTable_acceptsOnlyCommands r listed w accepted
    exact ⟨i, decode_encode i, named⟩
  · obtain ⟨e, illegal⟩ := decode_error_of_no_row rejected
    exact step_of_decode_error idle issued illegal

end Sys2Proof
end

section
/-! The assembler's lines (30_encoding.md R100, R101): the words of a line are the encodings of the commands it stands
for, so their fields are read off the encoder. -/

namespace Sys2Proof

theorem assemble_of_wf {l : Source} (h : l.wf = true) : assemble l = some ((expand l).map encode) := if_pos h

theorem assemble_of_not_wf {l : Source} (h : l.wf = false) : assemble l = none := by
  simp [assemble, h]

/-- Encoding commands and decoding the words gives the commands back, in order. -/
theorem map_decode_encode (is : List Instr) : (is.map encode).map decode = is.map .ok := by
  simp only [List.map_map, Function.comp_def, decode_encode]

theorem assemble_pulse (x : Signal) : ∃ w, assemble (.strobe [x]) = some [w] ∧ assemble (.pulse x) = some [w, w] :=
  ⟨encode (.strobe (idMask [x])), rfl, rfl⟩

/-- A byte operand stands in B, with every other operand field at 0. -/
theorem byteLines_assemble {n : Nat} (h : n < 256) : ∃ b : Byte, b.toNat = n ∧ AssemblesTo (.wrdata n) 0x1 0 0 b ∧
    AssemblesTo (.linkinit n) 0x6 0 0 b ∧ AssemblesTo (.write n) 0xC 0 0 b := by
  have wf : byteOk n = true := decide_eq_true h
  exact ⟨BitVec.ofNat 8 n, by simpa using Nat.mod_eq_of_lt h, assemblesTo_pack wf rfl, assemblesTo_pack wf rfl,
    assemblesTo_pack wf rfl⟩

/-- The level of RESETLVL stands in B. -/
theorem resetlvl_assembles {n : Nat} (h : n < 2) : ∃ b : Byte, b.toNat = n ∧ AssemblesTo (.resetlvl n) 0xF 0 0 b := by
  have level : n = 0 ∨ n = 1 := by omega
  rcases level with rfl | rfl
  · exact ⟨0, rfl, assemblesTo_pack rfl rfl⟩
  · exact ⟨1, rfl, assemblesTo_pack rfl rfl⟩

/-- A list of levels that names no signal twice assembles, with the names in M and the levels 1 in V. -/
theorem setsig_assembles {levels : List (Signal × Nat)} (names : (levels.map Prod.fst).Nodup)
    (small : ∀ p ∈ levels, p.2 < 2) : ∃ m v, AssemblesTo (.setsig levels) 0x2 m v 0 ∧
      ∀ x, (m.getLsbD x.id = true ↔ ∃ n, (x, n) ∈ levels) ∧ (v.getLsbD x.id = true ↔ (x, 1) ∈ levels) := by
  have wf : (Source.setsig levels).wf = true := by
    simpa [Source.wf, namedLevelsOk, levelOk, names] using small
  refine ⟨idMask (levels.map Prod.fst), levelBits levels, assemblesTo_pack wf rfl, fun x => ⟨?_, ?_⟩⟩
  · rw [getLsbD_idMask]
    simp
  · exact getLsbD_levelBits small x

/-- Settles O16, line form by line form. -/
theorem assembledLinesDecode : Obligations.AssembledLinesDecode := by
  unfold Obligations.AssembledLinesDecode
  refine ⟨by decide, fun n => byteLines_assemble, fun n => resetlvl_assembles, fun levels => setsig_assembles,
    fun names => ?_, assemble_pulse, fun x => ⟨rfl, rfl⟩, fun l => assemble_of_not_wf, fun l wf => ?_⟩
  · exact ⟨idMask names, assemblesTo_pack rfl rfl, getLsbD_idMask names⟩
  · exact ⟨_, assemble_of_wf wf, map_decode_encode _⟩

end Sys2Proof
end

section
/-! The response word (30_encoding.md R96): its three fields. -/

namespace Sys2Proof

open Machine

/-- The status and what stands above it, once the data byte is shifted out. -/
theorem responseWord_extract_above (r : Response) (k n : Nat) (h : 8 ≤ k) :
    (responseWord r).extractLsb' k n = ((0 : BitVec 4) ++ statusCode r.status).extractLsb' (k - 8) n :=
  BitVec.extractLsb'_append_eq_of_le h

/-- Settles O17: each field is one part of the concatenation, and the codes are those of the table. -/
theorem responseWordLayout : Obligations.ResponseWordLayout := by
  unfold Obligations.ResponseWordLayout
  refine ⟨fun r => ⟨?_, ?_, ?_⟩, rfl, rfl, rfl, rfl, rfl, rfl, rfl⟩
  · rw [responseWord_extract_above r 12 4 (by decide)]
    exact BitVec.extractLsb'_append_eq_left
  · rw [responseWord_extract_above r 8 4 (by decide)]
    exact BitVec.extractLsb'_append_eq_right
  · rw [responseWord]
    exact BitVec.extractLsb'_append_eq_right

end Sys2Proof
end

section
/-! Which registers and fields a command leaves alone, however it ends (40_interface.md R120 to R135; 60_exceptions.md
R206): the data-port commands keep the control side, the control-latch commands keep the data port, and only
construction touches the Link's state. -/

namespace Sys2Proof.Machine

/-- A relation that a command's sequence keeps holds from its start to the state that gets its response. -/
theorem Meets.exec_next {R : State → State → Prop} {i : Instr} (kept : Both R (commandBody i)) {s t : State}
    (run : exec i s = .next t) : ∃ u r, R s.start u ∧ t = u.finish r := by
  have ends := kept s.start
  rw [exec_eq] at run
  cases run
  cases hbody : commandBody i s.start <;> rw [hbody] at ends <;> exact ⟨_, _, ends, rfl⟩

/-! ### The commands on the control latch and the check of the Link, for every relation -/

section sequenced
variable {R : State → State → Prop} (seq : Sequenced R fun _ => R)
include seq

/-- The check of `LINK_READY` changes nothing (R150). -/
theorem Sequenced.requireLink : Both R requireLink := by
  intro s
  unfold Machine.requireLink
  cases s.linkReady <;> exact seq.refl s

/-- The check, and one operation before the rest. -/
theorem Sequenced.linked {α : Type} {x : Op α} {f : α → Op Response} (hx : Both R x) (hf : ∀ a, Both R (f a)) :
    Both R (do Machine.requireLink; let a ← x; f a) :=
  .bind seq seq.requireLink fun _ => .bind seq hx hf

theorem Sequenced.rdshadow : Both R (commandBody .rdshadow) := by
  refine .bind seq (.view seq _) fun valid => .bind seq (.view seq _) fun _ => ?_
  cases valid <;> exact .respond seq _ _

end sequenced

/-- The operations on the control latch and the wait keep the relation, however they end. -/
structure LatchKeeps (R : State → State → Prop) : Prop where
  seq     : Sequenced R fun _ => R
  read    : Both R (memRead .olatCtrl)
  control : ∀ n, Both R (writeControl n)
  wait    : Both R waitHold

namespace LatchKeeps

variable {R : State → State → Prop} (p : LatchKeeps R)
include p

theorem set (m v : Byte) : Both R (setSignals m v) := .setSignals p.seq p.read p.control m v

theorem strobeSignal (m : Byte) : Both R (strobeSignal m) :=
  .strobeSignal p.seq p.read p.control p.wait p.seq.refl m

theorem pulse (x : Signal) : Both R (pulse x) := .bind p.seq (p.strobeSignal _) fun _ => p.strobeSignal _

theorem setsig (m v : Byte) : Both R (commandBody (.setsig m v)) :=
  .bind p.seq (p.set m v) fun _ => .respond p.seq _ _

theorem strobe (m : Byte) : Both R (commandBody (.strobe m)) :=
  .bind p.seq (p.strobeSignal m) fun _ => .respond p.seq _ _

theorem reset : Both R (commandBody .reset) := p.seq.linked (p.pulse _) fun _ => .respond p.seq _ _

theorem resetlvl (l : Bool) : Both R (commandBody (.resetlvl l)) :=
  p.seq.linked (p.set _ _) fun _ => .respond p.seq _ _

end LatchKeeps

/-! ### Registers a command may store to -/

/-- A failed write, landed or not, leaves every other address alone (R206). -/
theorem State.failedWrite_elsewhere (s : State) (r : Reg) (v : Byte) {a : Nat} (h : a ≠ (s.board.addr r).key) :
    Memory.read (s.failedWrite r v).mem a = Memory.read s.mem a := by
  rw [State.failedWrite_mem]
  split
  · exact Memory.read_write_other _ _ h
  · rfl

/-- t is s on the same board, and only the listed registers may have been stored to. -/
def StoresOnly (stored : List Reg) (s t : State) : Prop := t.board = s.board ∧ KeptElsewhere s t stored

namespace StoresOnly

variable {stored : List Reg}

theorem of_same_mem {s t : State} (hb : t.board = s.board) (hm : t.mem = s.mem) : StoresOnly stored s t :=
  ⟨hb, fun _ _ => by rw [hm]⟩

/-- One listed register has changed at most. -/
theorem of_one {s t : State} {r : Reg} (hr : r ∈ stored) (hb : t.board = s.board)
    (h : ∀ a, a ≠ (s.board.addr r).key → Memory.read t.mem a = Memory.read s.mem a) : StoresOnly stored s t :=
  ⟨hb, fun a ha => h a (ha r hr)⟩

theorem trans {s t u : State} (first : StoresOnly stored s t) (second : StoresOnly stored t u) :
    StoresOnly stored s u := by
  obtain ⟨hb, kept⟩ := first
  obtain ⟨hb', kept'⟩ := second
  exact ⟨hb'.trans hb, fun a ha => (kept' a (by rwa [hb])).trans (kept a ha)⟩

theorem failedWrite {r : Reg} (hr : r ∈ stored) (s : State) (v : Byte) : StoresOnly stored s (s.failedWrite r v) :=
  .of_one hr (by simp) fun _ => s.failedWrite_elsewhere r v

end StoresOnly

/-! ### The fields a command may keep -/

theorem KeptLink.trans {s t u : State} (first : KeptLink s t) (second : KeptLink t u) : KeptLink s u :=
  ⟨second.1.trans first.1, second.2.trans first.2⟩

theorem KeptShadow.trans {s t u : State} (first : KeptShadow s t) (second : KeptShadow t u) : KeptShadow s u :=
  ⟨second.1.trans first.1, second.2.trans first.2⟩

/-- No failed write touches the Link's state (R206). -/
theorem KeptLink.failedWrite (s : State) (r : Reg) (v : Byte) : KeptLink s (s.failedWrite r v) :=
  ⟨s.failedWrite_linkReady r v, s.failedWrite_linkSpeed r v⟩

/-! ### The data-port commands -/

/-- What a command on the data port keeps: the shadow, the Link's state and every register but the listed ones. -/
structure KeepsControl (stored : List Reg) (s t : State) : Prop where
  shadow : KeptShadow s t
  link   : KeptLink s t
  stores : StoresOnly stored s t

namespace KeepsControl

variable {stored : List Reg}

theorem refl (s : State) : KeepsControl stored s s := ⟨⟨rfl, rfl⟩, ⟨rfl, rfl⟩, .of_same_mem rfl rfl⟩

theorem trans {s t u : State} (first : KeepsControl stored s t) (second : KeepsControl stored t u) :
    KeepsControl stored s u :=
  ⟨first.shadow.trans second.shadow, first.link.trans second.link, first.stores.trans second.stores⟩

theorem sequenced : Sequenced (KeepsControl stored) fun _ => KeepsControl stored :=
  seqBoth refl fun _ _ _ => trans

theorem read (r : Reg) : Both (KeepsControl stored) (memRead r) :=
  both_read r (fun _ => ⟨⟨rfl, rfl⟩, ⟨rfl, rfl⟩, .of_same_mem rfl rfl⟩)
    fun _ => ⟨⟨rfl, rfl⟩, ⟨rfl, rfl⟩, .of_same_mem rfl rfl⟩

theorem afterDirection (hr : .dirData ∈ stored) (s : State) (v : Byte) (d : DataDir) :
    KeepsControl stored s (s.afterDirection v d) :=
  ⟨⟨rfl, rfl⟩, ⟨rfl, rfl⟩, .of_one hr rfl fun _ => s.afterDirection_elsewhere v d⟩

theorem completedData (hr : .olatData ∈ stored) (s : State) (b : Byte) :
    KeepsControl stored s (s.completedWrite .olatData b) :=
  ⟨⟨rfl, rfl⟩, ⟨rfl, rfl⟩, .of_one hr rfl fun _ => s.completedWrite_elsewhere _ b⟩

/-- A failed write of a register other than the control latch leaves the shadow alone (R206). -/
theorem failedWrite {r : Reg} (hr : r ∈ stored) (other : r ≠ .olatCtrl) (s : State) (v : Byte) :
    KeepsControl stored s (s.failedWrite r v) :=
  ⟨⟨by simp, by simp [other]⟩, .failedWrite s r v, .failedWrite hr s v⟩

theorem release (hr : .dirData ∈ stored) : Both (KeepsControl stored) releaseData :=
  both_release (fun s => afterDirection hr s _ _) fun s => failedWrite hr (by decide) s _

theorem writeData (hd : .dirData ∈ stored) (hl : .olatData ∈ stored) (b : Byte) :
    Both (KeepsControl stored) (writeData b) :=
  both_writeData sequenced.trans b (fun s => afterDirection hd s _ _) (fun s => failedWrite hd (by decide) s _)
    (fun s => completedData hl s b) fun s => failedWrite hl (by decide) s b

theorem rddata : Both (KeepsControl [.dirData]) (commandBody .rddata) :=
  .bind sequenced (.bind sequenced (release (by simp)) fun _ => read _) fun _ => .respond sequenced _ _

theorem reldata : Both (KeepsControl [.dirData]) (commandBody .reldata) :=
  .bind sequenced (release (by simp)) fun _ => .respond sequenced _ _

theorem wrdata (b : Byte) : Both (KeepsControl [.dirData, .olatData]) (commandBody (.wrdata b)) :=
  .bind sequenced (writeData (by simp) (by simp) b) fun _ => .respond sequenced _ _

/-- What a sequence keeps, its command keeps. -/
theorem of_exec {i : Instr} (kept : Both (KeepsControl stored) (commandBody i)) {s t : State}
    (run : exec i s = .next t) : KeptShadow s t ∧ KeptLink s t ∧ KeptElsewhere s t stored := by
  obtain ⟨u, r, ⟨shadow, link, -, elsewhere⟩, rfl⟩ := kept.exec_next run
  exact ⟨shadow, link, elsewhere⟩

end KeepsControl

/-! ### The control-latch commands -/

/-- What a command on the control latch keeps: the data direction and every register but the latch. -/
structure KeepsDataPort (s t : State) : Prop where
  dataDir : t.dataDir = s.dataDir
  stores  : StoresOnly [.olatCtrl] s t

namespace KeepsDataPort

theorem of_same_mem {s t : State} (hd : t.dataDir = s.dataDir) (hb : t.board = s.board) (hm : t.mem = s.mem) :
    KeepsDataPort s t := ⟨hd, .of_same_mem hb hm⟩

theorem trans {s t u : State} (first : KeepsDataPort s t) (second : KeepsDataPort t u) : KeepsDataPort s u :=
  ⟨second.dataDir.trans first.dataDir, first.stores.trans second.stores⟩

theorem sequenced : Sequenced KeepsDataPort fun _ => KeepsDataPort :=
  seqBoth (fun _ => .of_same_mem rfl rfl rfl) fun _ _ _ => trans

theorem control (n : Byte) : Both KeepsDataPort (writeControl n) :=
  both_control n (fun s => ⟨rfl, .of_one (by simp) rfl fun _ => s.afterControl_elsewhere n⟩)
    fun s => ⟨by simp, .failedWrite (by simp) s n⟩

theorem latch : LatchKeeps KeepsDataPort where
  seq := sequenced
  read := both_read _ (fun _ => .of_same_mem rfl rfl rfl) fun _ => .of_same_mem rfl rfl rfl
  control := control
  wait _ := .of_same_mem rfl rfl rfl

theorem construct (n : LinkSpeed) : Both KeepsDataPort (construct n) :=
  .construct sequenced latch.set (fun _ _ => .of_same_mem rfl rfl rfl) (fun _ _ => .of_same_mem rfl rfl rfl) n

/-- The commands that access no adapter register and are none of the data port's. -/
theorem commandBody {i : Instr} (noAccess : lastSelect i = none) (hrd : i ≠ .rddata) (hrel : i ≠ .reldata)
    (hwr : ∀ b, i ≠ .wrdata b) : Both KeepsDataPort (commandBody i) := by
  have seq := sequenced
  cases i with
  | rddata => exact absurd rfl hrd
  | reldata => exact absurd rfl hrel
  | wrdata b => exact absurd rfl (hwr b)
  | datapresent | outputready | inten | intdis | write _ | read => cases noAccess
  | setsig m v => exact latch.setsig m v
  | strobe m => exact latch.strobe m
  | rdshadow => exact seq.rdshadow
  | linkinit b =>
    simp only [Machine.commandBody]
    cases speedOf b with
    | none => exact seq.refl
    | some n => exact .bind seq (construct n) fun _ => .respond seq _ _
  | linkinitd => exact .bind seq (.view seq _) fun _ => .bind seq (construct _) fun _ => .respond seq _ _
  | reset => exact latch.reset
  | resetlvl l => exact latch.resetlvl l

/-- What a sequence keeps, its command keeps. -/
theorem of_exec {i : Instr} (kept : Both KeepsDataPort (Machine.commandBody i)) {s t : State}
    (run : exec i s = .next t) : t.dataDir = s.dataDir ∧ KeptElsewhere s t [.olatCtrl] := by
  obtain ⟨u, r, ⟨dataDir, -, elsewhere⟩, rfl⟩ := kept.exec_next run
  exact ⟨dataDir, elsewhere⟩

end KeepsDataPort

/-! ### The Link's state -/

namespace KeptLink

theorem sequenced : Sequenced KeptLink fun _ => KeptLink :=
  seqBoth (fun _ => ⟨rfl, rfl⟩) fun _ _ _ => trans

theorem read (r : Reg) : Both KeptLink (memRead r) := both_read r (fun _ => ⟨rfl, rfl⟩) fun _ => ⟨rfl, rfl⟩

theorem latch : LatchKeeps KeptLink where
  seq := sequenced
  read := read _
  control n := both_control n (fun _ => ⟨rfl, rfl⟩) fun s => failedWrite s _ n
  wait _ := ⟨rfl, rfl⟩

theorem release : Both KeptLink releaseData := both_release (fun _ => ⟨rfl, rfl⟩) fun s => failedWrite s _ _

theorem writeData (b : Byte) : Both KeptLink (writeData b) :=
  both_writeData sequenced.trans b (fun _ => ⟨rfl, rfl⟩) (fun s => failedWrite s _ _) (fun _ => ⟨rfl, rfl⟩)
    fun s => failedWrite s _ b

theorem readData : Both KeptLink readData := .bind sequenced release fun _ => read _

theorem selectRegister (sel : Selector) : Both KeptLink (selectRegister sel) :=
  .bind sequenced (.view sequenced _) fun _ => latch.set _ _

theorem accessRead (sel : Selector) : Both KeptLink (accessRead sel) :=
  have seq := sequenced
  .bind seq (selectRegister sel) fun _ => .bind seq (latch.set _ _) fun _ => .bind seq readData fun _ =>
    .bind seq (latch.set _ _) fun _ => .pure seq _

theorem accessWrite (sel : Selector) (b : Byte) : Both KeptLink (accessWrite sel b) :=
  have seq := sequenced
  .bind seq (selectRegister sel) fun _ => .bind seq (writeData b) fun _ => .bind seq (latch.pulse _) fun _ => release

/-- Only the constructions write `LINK_READY` or `LINK_SPEED` (R37, R38). -/
theorem commandBody {i : Instr} (hi : constructs i = false) : Both KeptLink (commandBody i) := by
  have seq := sequenced
  cases i with
  | linkinit _ | linkinitd => cases hi
  | rddata => exact .bind seq readData fun _ => .respond seq _ _
  | wrdata b => exact .bind seq (writeData b) fun _ => .respond seq _ _
  | setsig m v => exact latch.setsig m v
  | strobe m => exact latch.strobe m
  | reldata => exact .bind seq release fun _ => .respond seq _ _
  | rdshadow => exact seq.rdshadow
  | datapresent | outputready | read => exact seq.linked (accessRead _) fun _ => .respond seq _ _
  | inten | intdis =>
    exact seq.linked (accessWrite _ _) fun _ => .bind seq (accessWrite _ _) fun _ =>
      .bind seq (latch.set _ _) fun _ => .respond seq _ _
  | write b => exact seq.linked (accessWrite _ b) fun _ => .bind seq (latch.set _ _) fun _ => .respond seq _ _
  | reset => exact latch.reset
  | resetlvl l => exact latch.resetlvl l

/-- What a sequence keeps, its command keeps. -/
theorem of_exec {i : Instr} (kept : Both KeptLink (Machine.commandBody i)) {s t : State}
    (run : exec i s = .next t) : KeptLink s t := by
  obtain ⟨u, r, kept, rfl⟩ := kept.exec_next run
  exact kept

end KeptLink

end Sys2Proof.Machine

namespace Sys2Proof

open Machine

/-- Settles O27, by the frame of the three sequences, whichever transaction fails. -/
theorem dataPortCommandsKeepControl : Obligations.DataPortCommandsKeepControl := by
  unfold Obligations.DataPortCommandsKeepControl
  refine fun s t => ⟨?_, fun b => KeepsControl.of_exec (KeepsControl.wrdata b)⟩
  rintro (run | run)
  · exact KeepsControl.of_exec KeepsControl.rddata run
  · exact KeepsControl.of_exec KeepsControl.reldata run

/-- Settles O28, by the frames of the sequences, command by command. -/
theorem controlCommandsKeepDataPort : Obligations.ControlCommandsKeepDataPort := by
  unfold Obligations.ControlCommandsKeepDataPort
  refine fun s t => ⟨fun i run noAccess hrd hrel hwr => ?_, fun i run hi => ?_⟩
  · exact KeepsDataPort.of_exec (KeepsDataPort.commandBody noAccess hrd hrel hwr) run
  · exact KeptLink.of_exec (KeptLink.commandBody hi) run

end Sys2Proof
end

section
/-! The Interface commands one by one (40_interface.md R120 to R140): what each records and leaves where it completes,
and where its first or second transaction fails. -/

namespace Sys2Proof.Machine

/-! ### The end of a command -/

/-- A sequence that raised an error ends its command with the error's response (R14). -/
theorem exec_of_error {i : Instr} {s u : State} {e : Status} (h : commandBody i s.start = .error e u) :
    exec i s = .next (u.finish (errorResponse e)) := by
  rw [exec_eq, h]
  rfl

/-- A command without a primitive leaves nothing but its response. -/
theorem State.start_finish_eq_answered (s : State) (r : Response) : s.start.finish r = s.answered r := rfl

/-- The record of a command is read off its response and its trace: the rest of it every command keeps. -/
theorem ended_of_exec {i : Instr} {s t : State} {r : Response} {events : List Event} (run : exec i s = .next t)
    (resp : t.resp = some r) (trace : t.trace = s.trace ++ events) : Ended s t r events := by
  obtain ⟨t', r', events', run', ended, -⟩ := everyCommandEndsWithOneResponse i s
  obtain rfl : t = t' := by rw [run] at run'; cases run'; rfl
  obtain rfl : r = r' := by simpa [ended.resp] using resp.symm
  obtain rfl : events = events' := by simpa [ended.trace] using trace.symm
  exact ended

/-! ### The data port -/

/-- A direction register at `DIR_ALL_OUT` drives the pins with the data latch (R63). -/
theorem State.dataPins_driven {s : State} (h : s.expReg .dirData = s.board.raw.dirAllOut) :
    s.dataPins = .driven (s.expReg .olatData) := by
  simp [State.dataPins, h]

/-- A direction register at `DIR_ALL_IN` leaves the pins to the adapter (R63). -/
theorem State.dataPins_tristate {s : State} (h : s.expReg .dirData = s.board.raw.dirAllIn) :
    s.dataPins = .tristate := by
  simp [State.dataPins, h, s.board.dirAllIn_ne_dirAllOut]

section dataPort
variable {s : State}

theorem quiet_one (h : (s.drawAt 0).fails = false) : s.quiet 1 := fun k hk => by
  obtain rfl : k = 0 := by omega
  exact h

theorem writeDirection_fails {v : Byte} {d : DataDir} (h : (s.drawAt 0).fails = true) :
    writeDirection v d s = .error .transportError (s.failedWrite .dirData v) :=
  bind_eq_error.2 (.inl (memWrite_fails h))

theorem releaseData_fails (h : (s.drawAt 0).fails = true) :
    releaseData s = .error .transportError (s.failedWrite .dirData s.board.raw.dirAllIn) :=
  writeDirection_fails h

theorem readData_directionFails (h : (s.drawAt 0).fails = true) :
    readData s = .error .transportError (s.failedWrite .dirData s.board.raw.dirAllIn) :=
  bind_eq_error.2 (.inl (releaseData_fails h))

theorem readData_readFails (h0 : (s.drawAt 0).fails = false) (h1 : (s.drawAt 1).fails = true) :
    readData s = .error .transportError (s.afterRelease.advance.record (s.board.failed .inData)) :=
  bind_eq_error.2 (.inr ⟨(), _, releaseData_quiet (quiet_one h0), memRead_fails (by simpa using h1)⟩)

theorem writeData_directionFails {b : Byte} (h : (s.drawAt 0).fails = true) :
    writeData b s = .error .transportError (s.failedWrite .dirData s.board.raw.dirAllOut) :=
  bind_eq_error.2 (.inr ⟨_, s, rfl, bind_eq_error.2 (.inl (writeDirection_fails h))⟩)

theorem writeData_latchFails {b : Byte} (h0 : (s.drawAt 0).fails = false) (h1 : (s.drawAt 1).fails = true) :
    writeData b s = .error .transportError
      ((s.afterDirection s.board.raw.dirAllOut .output).failedWrite .olatData b) :=
  bind_eq_error.2 (.inr ⟨_, s, rfl, bind_eq_error.2 (.inr ⟨(), _, writeDirection_quiet h0,
    memWrite_fails (by simpa using h1)⟩)⟩)

end dataPort

/-! ### The control latch -/

section controlLatch
variable {s : State}

theorem setSignals_readFails {m v : Byte} (h : (s.drawAt 0).fails = true) :
    setSignals m v s = .error .transportError (s.advance.record (s.board.failed .olatCtrl)) :=
  bind_eq_error.2 (.inl (memRead_fails h))

theorem writeControl_fails {n : Byte} (h : (s.drawAt 0).fails = true) :
    writeControl n s = .error .transportError (s.failedWrite .olatCtrl n) :=
  bind_eq_error.2 (.inl (memWrite_fails h))

theorem setSignals_writeFails {m v : Byte} (h0 : (s.drawAt 0).fails = false) (h1 : (s.drawAt 1).fails = true) :
    setSignals m v s = .error .transportError
      ((s.afterRead .olatCtrl).failedWrite .olatCtrl (mergeLevels s.board.sig m v s.latch)) :=
  bind_eq_error.2 (.inr ⟨_, _, memRead_quiet h0, bind_eq_error.2 (.inr ⟨_, _, rfl,
    writeControl_fails (by simpa using h1)⟩)⟩)

/-- A mask that names one signal is that signal's (R130). -/
theorem namedSignals_eq_of_popcount {m : Byte} {x : Signal} (one : popcount m = 1) (named : m.getLsbD x.id = true) :
    namedSignals m = [x] := by
  obtain ⟨y, hy⟩ := popcount_one one
  have mem : x ∈ namedSignals m := (mem_namedSignals m x).2 named
  rw [hy, List.mem_singleton] at mem
  rw [hy, mem]

/-- A STROBE of one signal on a quiet bus. -/
theorem exec_strobe_quiet {m : Byte} {x : Signal} (named : namedSignals m = [x]) (q : s.quiet 2) :
    exec (.strobe m) s = .next ((s.start.afterStrobe x).finish ⟨.ok, 0x00⟩) := by
  have argument : argumentOk (.strobe m) = true := by simp [argumentOk, popcount_eq_length, named]
  have run := exec_quiet (i := .strobe m) q (by simp [needsLink]) argument (by simp)
  simpa only [completedState, completedData, named] using run

theorem strobeSignal_readFails {x : Signal} (h : (s.drawAt 0).fails = true) :
    strobeSignal (maskOf [x]) s = .error .transportError (s.advance.record (s.board.failed .olatCtrl)) := by
  rw [strobeSignal_one]
  exact bind_eq_error.2 (.inl (memRead_fails h))

/-- A STROBE of one signal ends where its signal's sequence ends. -/
theorem exec_strobe_of_error {m : Byte} {x : Signal} {u : State} {e : Status} (named : namedSignals m = [x])
    (h : strobeSignal (maskOf [x]) s.start = .error e u) :
    exec (.strobe m) s = .next (u.finish (errorResponse e)) :=
  exec_of_error (bind_eq_error.2 (.inl (strobeSignal_named named ▸ h)))

/-- A failed control-latch update leaves the latch at the word read or at the new one (R206). -/
theorem State.failedUpdate_latch (s : State) (n : Byte) : ((s.afterRead .olatCtrl).failedWrite .olatCtrl n).latch =
    if (s.drawAt 1).lands then n else s.latch := by
  have failed := (s.afterRead .olatCtrl).failedWrite_expReg .olatCtrl n
  rwa [State.afterRead_drawAt] at failed

/-- Under the invariant a valid shadow is the latch (R35). -/
theorem State.Inv.latch_eq_shadow (inv : s.Inv) (valid : s.shadowValid = true) : s.latch = s.shadow := by
  simp [State.latch, State.expReg, inv.shadowLatch valid]

end controlLatch

end Sys2Proof.Machine

namespace Sys2Proof

open Machine

/-- Settles O18: a failure ends the sequence at its first or at its second transaction. -/
theorem rddataReadsPins : Obligations.RddataReadsPins := by
  unfold Obligations.RddataReadsPins
  refine ⟨by decide, fun s q => ?_, fun s h0 => ?_, fun s h0 h1 => ?_⟩
  · have run := exec_quiet (i := .rddata) q (by simp [needsLink]) rfl (by simp)
    obtain ⟨shadow, link, elsewhere⟩ := (dataPortCommandsKeepControl s _).1 (.inl run)
    exact ⟨_, run, ended_of_exec run rfl s.start.afterReadData_trace, rfl, s.start.afterReadData_dirData, elsewhere,
      shadow, link⟩
  · have run := exec_of_error (i := .rddata) (s := s) (bind_eq_error.2 (.inl (readData_directionFails h0)))
    exact ⟨_, run, ended_of_exec run rfl (s.start.failedWrite_trace _ _), s.start.failedWrite_dataDir _ _⟩
  · have run := exec_of_error (i := .rddata) (s := s) (bind_eq_error.2 (.inl (readData_readFails h0 h1)))
    exact ⟨_, run, ended_of_exec run rfl (by simp), rfl⟩

/-- Settles O19: the direction is written before the latch, so where it fails the latch is as it was. -/
theorem wrdataDrivesByte : Obligations.WrdataDrivesByte := by
  unfold Obligations.WrdataDrivesByte
  refine ⟨fun b => decode_encode (.wrdata b), fun s b q => ?_, fun s b h0 => ?_, fun s b h0 h1 => ?_⟩
  · have run := exec_quiet (i := .wrdata b) q (by simp [needsLink]) rfl (by simp)
    obtain ⟨shadow, link, elsewhere⟩ := (dataPortCommandsKeepControl s _).2 b run
    have pins := State.dataPins_driven (s := s.start.afterWriteData b) (by simp)
    rw [State.afterWriteData_olatData] at pins
    exact ⟨_, run, ended_of_exec run rfl (s.start.afterWriteData_trace b), rfl, pins, elsewhere, shadow, link⟩
  · have run := exec_of_error (i := .wrdata b) (s := s) (bind_eq_error.2 (.inl (writeData_directionFails h0)))
    exact ⟨_, run, ended_of_exec run rfl (s.start.failedWrite_trace _ _), s.start.failedWrite_dataDir _ _,
      s.start.failedWrite_expReg_other _ (by decide)⟩
  · have run := exec_of_error (i := .wrdata b) (s := s) (bind_eq_error.2 (.inl (writeData_latchFails h0 h1)))
    refine ⟨_, run, ended_of_exec run rfl (by simp), by simp, ?_⟩
    simp [State.failedWrite_expReg]

/-- Settles O20: one read-modify-write, whose word is the merge of the named levels into the word read. -/
theorem setsigWritesNamedLevels : Obligations.SetsigWritesNamedLevels := by
  unfold Obligations.SetsigWritesNamedLevels
  refine ⟨fun m v => decode_encode (.setsig m v), fun s m v q => ?_, fun s m v h0 => ?_, fun s m v h0 h1 => ?_⟩
  · have run := exec_quiet (i := .setsig m v) q (by simp [needsLink]) rfl (by simp)
    obtain ⟨dataDir, elsewhere⟩ := (controlCommandsKeepDataPort s _).1 _ run rfl (by simp) (by simp) (by simp)
    have link := (controlCommandsKeepDataPort s _).2 _ run rfl
    exact ⟨_, mergeLevels s.board.sig m v s.latch, run, ended_of_exec run rfl (s.start.afterSet_trace m v),
      ⟨s.start.afterSet_latch m v, s.start.afterSet_shadow m v, rfl, dataDir, elsewhere⟩, link,
      getLsbD_mergeLevels (fun _ _ => s.board.sig_injective) m v s.latch⟩
  · have run := exec_of_error (i := .setsig m v) (s := s) (bind_eq_error.2 (.inl (setSignals_readFails h0)))
    exact ⟨_, run, ended_of_exec run rfl rfl, rfl, rfl, rfl⟩
  · have run := exec_of_error (i := .setsig m v) (s := s) (bind_eq_error.2 (.inl (setSignals_writeFails h0 h1)))
    exact ⟨_, run, ended_of_exec run rfl (by simp), by simp, by simp, s.start.failedUpdate_latch _⟩

/-- Settles O21: past the check of its mask the command is that of its one signal. -/
theorem strobeInvertsOneSignal : Obligations.StrobeInvertsOneSignal := by
  unfold Obligations.StrobeInvertsOneSignal
  refine ⟨fun m => decode_encode (.strobe m), fun s m x one named q => ?_, fun s m many => ?_,
    fun s m one h0 => ?_, fun s m x one named h0 h1 => ?_⟩
  · have run := exec_strobe_quiet (namedSignals_eq_of_popcount one named) q
    obtain ⟨dataDir, elsewhere⟩ := (controlCommandsKeepDataPort s _).1 _ run rfl (by simp) (by simp) (by simp)
    have link := (controlCommandsKeepDataPort s _).2 _ run rfl
    refine ⟨_, invertSignal s.board.sig x s.latch, run, ended_of_exec run rfl (s.start.afterStrobe_trace x),
      ⟨s.start.afterStrobe_latch x, s.start.afterStrobe_shadow x, rfl, dataDir, elsewhere⟩, link, fun y => ?_⟩
    rw [getLsbD_invertSignal (fun _ _ => s.board.sig_injective), decide_eq_decide.2 (eq_comm (a := x))]
  · have rejected : strobeSignal m s.start = .error .invalidArgument s.start := by
      rw [strobeSignal_rejects many, raise_run]
    have run := exec_of_error (i := .strobe m) (s := s) (bind_eq_error.2 (.inl rejected))
    rwa [State.start_finish_eq_answered] at run
  · obtain ⟨x, named⟩ := popcount_one one
    have run := exec_strobe_of_error (s := s) named (strobeSignal_readFails h0)
    exact ⟨_, run, ended_of_exec run rfl rfl, rfl, rfl, rfl⟩
  · have run := exec_strobe_of_error (s := s) (namedSignals_eq_of_popcount one named) (strobeSignal_writeFails h0 h1)
    exact ⟨_, run, ended_of_exec run rfl (by simp), by simp, by simp, s.start.failedUpdate_latch _⟩

/-- Settles O22: the one write of the direction completes, or leaves the direction unknown. -/
theorem reldataReleasesDataPort : Obligations.ReldataReleasesDataPort := by
  unfold Obligations.ReldataReleasesDataPort
  refine ⟨by decide, fun s q => ?_, fun s h0 => ?_⟩
  · have run := exec_quiet (i := .reldata) q (by simp [needsLink]) rfl (by simp)
    obtain ⟨shadow, link, elsewhere⟩ := (dataPortCommandsKeepControl s _).1 (.inr run)
    exact ⟨_, run, ended_of_exec run rfl s.start.afterRelease_trace, rfl,
      State.dataPins_tristate s.start.afterRelease_dirData, elsewhere, shadow, link⟩
  · have run := exec_of_error (i := .reldata) (s := s) (bind_eq_error.2 (.inl (releaseData_fails h0)))
    exact ⟨_, run, ended_of_exec run rfl (s.start.failedWrite_trace _ _), s.start.failedWrite_dataDir _ _⟩

/-- Settles O23: the sequence has no primitive, and `finish` is all that happens. -/
theorem rdshadowReportsShadow : Obligations.RdshadowReportsShadow := by
  unfold Obligations.RdshadowReportsShadow
  refine ⟨by decide, fun s => ?_⟩
  rw [exec_eq]
  cases valid : s.shadowValid <;>
    simp [commandBody, valid, endCommand, State.start_finish_eq_answered]

/-- Settles O24: a SETSIG that answered OK leaves its word in a valid shadow, which RDSHADOW answers. -/
theorem shadowReadsBackSetsig : Obligations.ShadowReadsBackSetsig := by
  unfold Obligations.ShadowReadsBackSetsig
  intro s t m v run ok
  obtain ⟨-, -, -, rfl⟩ := exec_answeredOk run ok
  refine ⟨_, mergeLevels s.board.sig m v s.latch, rdshadowReportsShadow.2 _, ?_,
    getLsbD_mergeLevels (fun _ _ => s.board.sig_injective) m v s.latch⟩
  simp [completedState, State.answered]

/-- Settles O25: the second inversion undoes the first (R247). -/
theorem twoStrobesRestore : Obligations.TwoStrobesRestore := by
  unfold Obligations.TwoStrobesRestore
  intro s x q
  have first := exec_strobe_quiet (namedSignals_maskOf_one x) fun k hk => q k (by omega)
  have second := exec_strobe_quiet (s := (s.start.afterStrobe x).finish ⟨.ok, 0x00⟩) (namedSignals_maskOf_one x)
    fun k hk => by simpa using q (k + 2) (by omega)
  refine ⟨_, _, first, second, ⟨_, rfl⟩, ⟨_, rfl⟩, ?_, by simp, by simp, fun inv valid => ?_⟩
  · have flipped := getLsbD_invertSignal (fun _ _ => s.board.sig_injective) x x s.latch
    simpa [State.level] using flipped
  · simp [inv.latch_eq_shadow valid]

end Sys2Proof
end

section
/-! The Link commands where they complete (41_link_protocol.md R160 to R183): what each records and leaves, and where a
construction stops when one of its transactions fails. -/

namespace Sys2Proof.Machine

/-! ### Construction -/

/-- A construction at speed n leaves a constructed Link (R160). -/
theorem constructed_finish {s : State} {i : Instr} {n : LinkSpeed}
    (run : exec i s = .next ((s.start.afterConstruct n).finish ⟨.ok, 0x00⟩)) : ∃ t, exec i s = .next t ∧
      Ended s t ⟨.ok, 0x00⟩ (s.board.constructEvents n s.latch) ∧
      ControlWritten s t (s.board.constructWords n s.latch).2.2.2 ∧ t.linkReady = true ∧ t.linkSpeed = some n := by
  have elsewhere : KeptElsewhere s ((s.start.afterConstruct n).finish ⟨.ok, 0x00⟩) [.olatCtrl] :=
    fun _ ha => s.start.afterConstruct_elsewhere n (ha .olatCtrl (by simp))
  exact ⟨_, run, ended_of_exec run rfl (s.start.afterConstruct_trace n),
    ⟨s.start.afterConstruct_latch n, s.start.afterConstruct_shadow n, by simp, by simp, elsewhere⟩, by simp, by simp⟩

/-- The speeds LINKINIT takes are those its check admits (R160). -/
theorem argumentOk_linkinit {b : Byte} {n : LinkSpeed} (speed : speedOf b = some n) :
    argumentOk (.linkinit b) = true := by
  by_contra refused
  simp only [argumentOk, Bool.or_eq_true, beq_iff_eq, not_or] at refused
  simp [speedOf_eq_none.2 refused] at speed

theorem exec_linkinit_quiet {s : State} {b : Byte} {n : LinkSpeed} (speed : speedOf b = some n) (q : s.quiet 8) :
    exec (.linkinit b) s = .next ((s.start.afterConstruct n).finish ⟨.ok, 0x00⟩) := by
  have run := exec_quiet (i := .linkinit b) q (by simp [needsLink]) (argumentOk_linkinit speed) (by simp)
  simpa only [completedState, completedData, speed] using run

/-! ### A construction that fails -/

/-- Of n transactions none fails, or one of them is the first that does. -/
theorem quiet_or_firstFails (s : State) (n : Nat) :
    s.quiet n ∨ ∃ k < n, s.quiet k ∧ (s.drawAt k).fails = true := by
  induction n with
  | zero => exact .inl fun k hk => absurd hk (Nat.not_lt_zero k)
  | succ n ih =>
    rcases ih with quiet | ⟨k, hk, first⟩
    · cases last : (s.drawAt n).fails with
      | true => exact .inr ⟨n, n.lt_succ_self, quiet, last⟩
      | false =>
        refine .inl fun k hk => ?_
        rcases Nat.lt_succ_iff_lt_or_eq.1 hk with hk | rfl
        · exact quiet k hk
        · exact last
    · exact .inr ⟨k, Nat.lt_succ_of_lt hk, first⟩

/-- A control-latch update one of whose transactions is the first that fails leaves the Link's state alone (R206). -/
theorem setSignals_firstFails {s : State} {m v : Byte} {k : Nat} (hk : k < 2) (q : s.quiet k)
    (hf : (s.drawAt k).fails = true) : ∃ u, setSignals m v s = .error .transportError u ∧ KeptLink s u := by
  obtain rfl | rfl : k = 0 ∨ k = 1 := by omega
  · exact ⟨_, setSignals_readFails hf, rfl, rfl⟩
  · exact ⟨_, setSignals_writeFails (q 0 Nat.one_pos) hf, KeptLink.failedWrite _ _ _⟩

/-- Where transaction k is the first that fails, a sequence that begins with a control-latch update ends in the update
or, two transactions on, in the rest. -/
theorem setSignals_bind_firstFails {s : State} {m v : Byte} {f : Unit → Op Unit} {k : Nat} {Ends : State → Prop}
    (q : s.quiet k) (hf : (s.drawAt k).fails = true) (first : k < 2 → ∀ u, KeptLink s u → Ends u)
    (rest : 2 ≤ k → (s.afterSet m v).quiet (k - 2) → ((s.afterSet m v).drawAt (k - 2)).fails = true →
      ∃ u, f () (s.afterSet m v) = .error .transportError u ∧ Ends u) :
    ∃ u, (setSignals m v >>= f) s = .error .transportError u ∧ Ends u := by
  by_cases hk : k < 2
  · obtain ⟨u, failed, kept⟩ := setSignals_firstFails hk q hf
    exact ⟨u, bind_eq_error.2 (.inl failed), first hk u kept⟩
  · have later : k - 2 + 2 = k := by omega
    obtain ⟨u, failed, ends⟩ := rest (by omega) (fun j hj => by simpa using q (j + 2) (by omega))
      (by simpa [later] using hf)
    exact ⟨u, bind_eq_error.2 (.inr ⟨(), _, setSignals_quiet fun j hj => q j (by omega), failed⟩), ends⟩

/-- A construction that fails leaves the Link not constructed, and its speed as before until the third update is done
(R160, R38). -/
theorem construct_firstFails {s : State} {n : LinkSpeed} {k : Nat} (hk : k < 8) (q : s.quiet k)
    (hf : (s.drawAt k).fails = true) : ∃ u, construct n s = .error .transportError u ∧ u.linkReady = false ∧
      u.linkSpeed = if k < 6 then s.linkSpeed else some n := by
  have early (t u : State) (hk : k < 6) (ht : t.linkReady = false ∧ t.linkSpeed = s.linkSpeed)
      (kept : KeptLink t u) : u.linkReady = false ∧ u.linkSpeed = if k < 6 then s.linkSpeed else some n := by
    rw [if_pos hk]
    exact ⟨kept.1.trans ht.1, kept.2.trans ht.2⟩
  unfold construct
  rw [bind_run, updateState_run]
  refine setSignals_bind_firstFails q hf (fun first u => early _ u (by omega) ⟨by simp, by simp⟩) fun _ q hf => ?_
  refine setSignals_bind_firstFails q hf (fun first u => early _ u (by omega) ⟨by simp, by simp⟩) fun _ q hf => ?_
  refine setSignals_bind_firstFails q hf (fun first u => early _ u (by omega) ⟨by simp, by simp⟩) fun _ q hf => ?_
  rw [bind_run, updateState_run]
  refine setSignals_bind_firstFails q hf (fun _ u kept => ?_) fun _ _ _ => by omega
  obtain ⟨ready, speed⟩ := kept
  rw [if_neg (by omega), ready, speed]
  simp

/-- A LINKINIT whose transaction k is the first that fails. -/
theorem exec_linkinit_firstFails {s : State} {b : Byte} {n : LinkSpeed} {k : Nat} (speed : speedOf b = some n)
    (hk : k < 8) (q : s.quiet k) (hf : (s.drawAt k).fails = true) : ∃ t, exec (.linkinit b) s = .next t ∧
      t.resp = some ⟨.transportError, 0x00⟩ ∧ t.linkReady = false ∧
      t.linkSpeed = if k < 6 then s.linkSpeed else some n := by
  obtain ⟨u, failed, ready, kept⟩ := construct_firstFails (s := s.start) (n := n) hk q hf
  refine ⟨_, exec_of_error (e := .transportError) (u := u) ?_, rfl, ready, kept⟩
  simp only [commandBody, speed]
  exact bind_eq_error.2 (.inl failed)

/-! ### Write accesses -/

/-- A signal named alone with no level set goes to level 0. -/
theorem mergeLevels_low (b : Board) (x : Signal) (c : Byte) :
    mergeLevels b.sig (maskOf [x]) 0#8 c = b.levelWord x false c := rfl

/-- The registers ACCESS_WRITE stores to (R155). -/
theorem StoresOnly.afterAccessWrite (s : State) (sel : Selector) (b : Byte) :
    StoresOnly [.olatCtrl, .dirData, .olatData] s (s.afterAccessWrite sel b) :=
  ⟨s.afterAccessWrite_board sel b, fun _ ha => s.afterAccessWrite_elsewhere sel b (ha .olatCtrl (by simp))
    (ha .dirData (by simp)) (ha .olatData (by simp))⟩

/-- A control-latch update stores to the control latch (R125). -/
theorem StoresOnly.afterSet {stored : List Reg} (hr : .olatCtrl ∈ stored) (s : State) (m v : Byte) :
    StoresOnly stored s (s.afterSet m v) :=
  ⟨s.afterSet_board m v, fun _ ha => s.afterSet_elsewhere m v (ha .olatCtrl hr)⟩

end Sys2Proof.Machine

namespace Sys2Proof

open Machine

/-- Settles O29: a construction on a quiet bus is the completed one, and any other stops at its first failure. -/
theorem linkinitConstructs : Obligations.LinkinitConstructs := by
  unfold Obligations.LinkinitConstructs
  refine ⟨fun b => decode_encode (.linkinit b), fun s b n speed q => constructed_finish (exec_linkinit_quiet speed q),
    fun s b not10 not20 => ?_, fun s t b n speed run failed => ?_,
    fun s b n k speed => exec_linkinit_firstFails speed, rfl, rfl, rfl, rfl⟩
  · refine exec_of_error (e := .invalidArgument) (u := s.start) ?_
    simp only [commandBody, speedOf_eq_none.2 ⟨not10, not20⟩, raise_run]
  · rcases quiet_or_firstFails s 8 with q | ⟨k, hk, q, hf⟩
    · rw [exec_linkinit_quiet speed q] at run
      cases run
      exact absurd ⟨_, rfl⟩ failed
    · obtain ⟨t', run', -, ready, -⟩ := exec_linkinit_firstFails speed hk q hf
      rw [run'] at run
      cases run
      exact ready

/-- Settles O30: the two commands run the same construction. -/
theorem linkinitdConstructsAtDefault : Obligations.LinkinitdConstructsAtDefault := by
  unfold Obligations.LinkinitdConstructsAtDefault
  refine ⟨decode_encode .linkinitd, fun s b speed => ?_, fun s q => ?_⟩
  · rw [exec_eq, exec_eq]
    simp only [commandBody, speed]
    rfl
  · exact constructed_finish (exec_quiet (i := .linkinitd) q (by simp [needsLink]) rfl (by simp))

/-- Settles O32: each of the three is one read access, and the byte on the pins is its answer. -/
theorem readAccessesAnswerFromPins : Obligations.ReadAccessesAnswerFromPins := by
  unfold Obligations.ReadAccessesAnswerFromPins
  intro s i sel d hi ready q
  have run : exec i s = .next ((s.start.afterAccessRead sel).finish ⟨.ok, d⟩) := by
    rcases hi with ⟨rfl, rfl, rfl⟩ | ⟨rfl, rfl, rfl⟩ | ⟨rfl, rfl, rfl⟩ <;>
      exact exec_quiet q (fun _ => ready) rfl (by simp)
  have noConstruction : constructs i = false := by
    rcases hi with ⟨rfl, -⟩ | ⟨rfl, -⟩ | ⟨rfl, -⟩ <;> rfl
  have elsewhere : KeptElsewhere s ((s.start.afterAccessRead sel).finish ⟨.ok, d⟩) [.olatCtrl, .dirData] :=
    fun _ ha => s.start.afterAccessRead_elsewhere sel (ha .olatCtrl (by simp)) (ha .dirData (by simp))
  exact ⟨_, run, ended_of_exec run rfl (s.start.afterAccessRead_trace sel), s.start.afterAccessRead_latch sel,
    s.start.afterAccessRead_shadow sel, by simp, by simp, s.start.afterAccessRead_dirData sel, elsewhere,
    (controlCommandsKeepDataPort s _).2 i run noConstruction⟩

/-- Settles O33: two write accesses of one byte, and SS_OFF. -/
theorem interruptControlSequence : Obligations.InterruptControlSequence := by
  unfold Obligations.InterruptControlSequence
  intro s i v hi ready q
  have run : exec i s = .next ((((s.start.afterAccessWrite .isrWr v).afterAccessWrite .osrWr v).afterSet
      (maskOf [.ss]) 0).finish ⟨.ok, 0x00⟩) := by
    rcases hi with ⟨rfl, rfl⟩ | ⟨rfl, rfl⟩
    · exact exec_quiet q (fun _ => ready) rfl (by simp)
    · exact exec_quiet q (fun _ => ready) rfl (by simp)
  have noConstruction : constructs i = false := by
    rcases hi with ⟨rfl, -⟩ | ⟨rfl, -⟩ <;> rfl
  obtain ⟨-, elsewhere⟩ := ((StoresOnly.afterAccessWrite s.start .isrWr v).trans (.afterAccessWrite _ .osrWr v)).trans
    (.afterSet (by simp) _ (maskOf [.ss]) 0)
  exact ⟨_, run, ended_of_exec run rfl (by simp [mergeLevels_low]), by simp [mergeLevels_low],
    by simp [mergeLevels_low], by simp, by simp, by simp, by simp, elsewhere,
    (controlCommandsKeepDataPort s _).2 i run noConstruction⟩

/-- Settles O34: one write access, and SS_OFF. -/
theorem writeSequence : Obligations.WriteSequence := by
  unfold Obligations.WriteSequence
  intro s b ready q
  have run := exec_quiet (i := .write b) q (fun _ => ready) rfl (by simp)
  obtain ⟨-, elsewhere⟩ := (StoresOnly.afterAccessWrite s.start .odrWr b).trans
    (.afterSet (by simp) _ (maskOf [.ss]) 0)
  exact ⟨_, run, ended_of_exec run rfl (by simp [completedState, mergeLevels_low]),
    by simp [completedState, mergeLevels_low], by simp [completedState, mergeLevels_low],
    by simp [completedState], by simp [completedState], by simp [completedState], by simp [completedState], elsewhere,
    (controlCommandsKeepDataPort s _).2 _ run rfl⟩

/-- Settles O35: the second strobe undoes the first (R247). -/
theorem resetPulsesLinkResetLine : Obligations.ResetPulsesLinkResetLine := by
  unfold Obligations.ResetPulsesLinkResetLine
  intro s ready q
  have run := exec_quiet (i := .reset) q (fun _ => ready) rfl (by simp)
  obtain ⟨dataDir, elsewhere⟩ := (controlCommandsKeepDataPort s _).1 _ run rfl (by simp) (by simp) (by simp)
  exact ⟨_, run, ended_of_exec run rfl (s.start.afterPulse_trace .lrst),
    ⟨s.start.afterPulse_latch .lrst, s.start.afterPulse_shadow .lrst, s.start.afterPulse_shadowValid .lrst, dataDir,
      elsewhere⟩, (controlCommandsKeepDataPort s _).2 _ run rfl⟩

/-- Settles O36: one update that names LRST alone. -/
theorem resetlvlHoldsLinkResetLine : Obligations.ResetlvlHoldsLinkResetLine := by
  unfold Obligations.ResetlvlHoldsLinkResetLine
  intro s l ready q
  have run := exec_quiet (i := .resetlvl l) q (fun _ => ready) rfl (by simp)
  obtain ⟨dataDir, elsewhere⟩ := (controlCommandsKeepDataPort s _).1 _ run rfl (by simp) (by simp) (by simp)
  exact ⟨_, s.board.levelWord .lrst l s.latch, run, ended_of_exec run rfl (State.afterSet_trace _ _ _),
    ⟨State.afterSet_latch _ _ _, State.afterSet_shadow _ _ _, rfl, dataDir, elsewhere⟩,
    (controlCommandsKeepDataPort s _).2 _ run rfl, fun x => wordLevel_levelWord s.board .lrst x l s.latch⟩

end Sys2Proof
end

section
/-! What a Link command that answered OK leaves on the control pins, and the data it latched on the way
(41_link_protocol.md R170, R172, R186; 70_reset_and_hazards.md R255). -/

namespace Sys2Proof.Machine

/-! ### The levels of the last control word -/

/-- A control pin has the level of its bit in the control latch (R64). -/
theorem State.level_eq_wordLevel (s : State) (x : Signal) : s.level x = wordLevel s.board s.latch x := rfl

section words
variable (b : Board) (c : Byte) (x : Signal)

/-- A SELECT sets the three select lines and SS, and keeps the other signals (R151). -/
theorem wordLevel_selectWord (sel : Selector) : wordLevel b (b.selectWord sel c) x =
    match x with
    | .rs0 => (b.raw.regsel.levels sel).rs0
    | .rs1 => (b.raw.regsel.levels sel).rs1
    | .rnw => (b.raw.regsel.levels sel).rnw
    | .ss => (b.raw.regsel.levels sel).ss
    | .rst | .csn | .lspd | .lrst => wordLevel b c x := by
  rw [Board.selectWord, wordLevel_mergeLevels, selectMask, getLsbD_maskOf, getLsbD_selectLevels]
  cases x <;> simp

/-- CS_OFF_SS_OFF deasserts chip select and clears SS (R152). -/
theorem wordLevel_csOffWord : wordLevel b (b.csOffWord c) x =
    if x = .csn then true else if x = .ss then false else wordLevel b c x := by
  rw [Board.csOffWord, wordLevel_mergeLevels, getLsbD_maskOf, getLsbD_maskOf]
  cases x <;> simp

/-- A construction gives RST, CSN and LSPD their levels (R160). -/
theorem wordLevel_constructWords (n : LinkSpeed) : wordLevel b (b.constructWords n c).2.2.2 x =
    match x with
    | .rst => false
    | .csn => true
    | .lspd => speedLevel n
    | .rs0 | .rs1 | .rnw | .ss | .lrst => wordLevel b c x := by
  simp only [Board.constructWords, wordLevel_levelWord]
  cases x <;> simp

end words

/-! ### Data-latch writes -/

theorem writesTo_olatData_updateEvents (b : Board) (c n : Byte) :
    writesTo (b.addr .olatData) (b.updateEvents c n) = [] := by
  rw [Board.updateEvents, ← List.singleton_append, writesTo_append]
  simp

/-- An ACCESS_WRITE latches its byte once (R155). -/
theorem writesTo_olatData_writeAccessEvents (b : Board) (sel : Selector) (v c : Byte) :
    writesTo (b.addr .olatData) (b.writeAccessEvents sel v c) = [v] := by
  have bus : writesTo (b.addr .olatData) [b.wr .dirData b.raw.dirAllOut, b.wr .olatData v] = [v] := by
    rw [← List.singleton_append, writesTo_append]
    simp
  simp only [Board.writeAccessEvents, Board.pulseEvents, Board.hold, writesTo_append, writesTo_olatData_updateEvents,
    bus, writesTo_wait, writesTo_wr]
  simp

end Sys2Proof.Machine

namespace Sys2Proof

open Machine

/-- Settles O31: a construction that answered OK leaves its fourth word, and the data port alone. -/
theorem constructionLevels : Obligations.ConstructionLevels := by
  unfold Obligations.ConstructionLevels
  intro s t i n hi run ok
  obtain ⟨-, -, -, rfl⟩ := exec_answeredOk run ok
  have completed : completedState s.start i = s.start.afterConstruct n := by
    rcases hi with ⟨b, rfl, speed⟩ | ⟨rfl, rfl⟩
    · simp only [completedState, speed]
    · rfl
  have lspd : speedLevel n = decide (n = .mbit20) := by cases n <;> rfl
  simp [completed, State.level_eq_wordLevel, wordLevel_constructWords, lspd]

/-- Settles O37: the last update of a read access is CS_OFF_SS_OFF, that of a write command SS_OFF after a pulse that
has restored CSN. -/
theorem accessCommandsLeaveLinkReleased : Obligations.AccessCommandsLeaveLinkReleased := by
  unfold Obligations.AccessCommandsLeaveLinkReleased
  intro s t i sel access high run ok
  obtain ⟨-, -, -, rfl⟩ := exec_answeredOk run ok
  rw [State.level_eq_wordLevel] at high
  cases i with
  | rddata | wrdata _ | setsig _ _ | strobe _ | reldata | rdshadow | linkinit _ | linkinitd | reset | resetlvl _ =>
    cases access
  | datapresent | outputready | read =>
    cases access
    simp [completedState, State.level_eq_wordLevel, wordLevel_csOffWord, wordLevel_levelWord, wordLevel_selectWord]
  | inten | intdis | write _ =>
    cases access
    simp [completedState, State.level_eq_wordLevel, mergeLevels_low, wordLevel_levelWord, wordLevel_selectWord, high]

/-- Settles O38: neither SELECT nor SS_OFF names CSN, and a pulse restores it. -/
theorem assertedChipSelectStaysAsserted : Obligations.AssertedChipSelectStaysAsserted := by
  unfold Obligations.AssertedChipSelectStaysAsserted
  intro s t i hi low run ok
  obtain ⟨-, -, -, rfl⟩ := exec_answeredOk run ok
  rw [State.level_eq_wordLevel] at low ⊢
  rcases hi with rfl | rfl | ⟨b, rfl⟩
  all_goals simp [completedState, mergeLevels_low, wordLevel_levelWord, wordLevel_selectWord, low]

/-- Settles O41: each of the two write accesses latches the byte once, and SS_OFF latches nothing. -/
theorem interruptControlLatchesTwice : Obligations.InterruptControlLatchesTwice := by
  unfold Obligations.InterruptControlLatchesTwice
  intro s t ok
  have twice {i : Instr} {v : Byte} (hi : (i = .inten ∧ v = 0x02) ∨ (i = .intdis ∧ v = 0x00))
      (run : exec i s = .next t) : writesTo (s.board.addr .olatData) (newEvents s t) = [v, v] := by
    have needs : needsLink i = true ∧ transactionTable i = (20, 4) := by
      rcases hi with ⟨rfl, -⟩ | ⟨rfl, -⟩ <;> exact ⟨rfl, rfl⟩
    obtain ⟨q, ready, -, -⟩ := exec_answeredOk run ok
    rw [needs.2] at q
    obtain ⟨t', run', ended, -⟩ := interruptControlSequence s i v hi (ready needs.1) q
    rw [run] at run'
    cases run'
    simp [newEvents, ended.trace, writesTo_append, writesTo_olatData_writeAccessEvents,
      writesTo_olatData_updateEvents]
  exact ⟨twice (.inl ⟨rfl, rfl⟩), twice (.inr ⟨rfl, rfl⟩)⟩

end Sys2Proof
end

section
/-! The updates of the control latch a command makes, and how the control lines move (41_link_protocol.md R151 to R156,
R187; 60_exceptions.md R206). Each command goes through a fixed list of updates; one that fails on the way goes through
a part of it, and its last update may not have landed. -/

namespace Sys2Proof.Machine

/-! ### Lists of updates -/

/-- The changes of the control lines under a list of updates of the control word, from the word c. -/
def plannedMoves : List (Byte → Byte) → Byte → List (Byte × Byte)
  | [], _ => []
  | f :: fs, c => (c, f c) :: plannedMoves fs (f c)

/-- The control word after a list of updates. -/
def updatedWord (fs : List (Byte → Byte)) (c : Byte) : Byte := fs.foldl (fun w f => f w) c

theorem updatedWord_append (fs gs : List (Byte → Byte)) (c : Byte) :
    updatedWord (fs ++ gs) c = updatedWord gs (updatedWord fs c) := List.foldl_append

theorem plannedMoves_append (fs gs : List (Byte → Byte)) (c : Byte) :
    plannedMoves (fs ++ gs) c = plannedMoves fs c ++ plannedMoves gs (updatedWord fs c) := by
  induction fs generalizing c with
  | nil => rfl
  | cons f fs ih => exact congrArg _ (ih (f c))

/-- A planned change is what one of the updates makes of the word before it. -/
theorem mem_plannedMoves {fs : List (Byte → Byte)} {c : Byte} {u : Byte × Byte} (hu : u ∈ plannedMoves fs c) :
    ∃ f ∈ fs, u.2 = f u.1 := by
  induction fs generalizing c with
  | nil => cases hu
  | cons f fs ih =>
    rcases List.mem_cons.1 hu with rfl | hu
    · exact ⟨f, List.mem_cons_self, rfl⟩
    · obtain ⟨g, hg, eq⟩ := ih hu
      exact ⟨g, List.mem_cons_of_mem f hg, eq⟩

/-- What every update keeps holds of every word on the way. -/
theorem plannedMoves_keep {P : Byte → Prop} {fs : List (Byte → Byte)} (keep : ∀ f ∈ fs, ∀ c, P c → P (f c)) {c : Byte}
    (hc : P c) : ∀ u ∈ plannedMoves fs c, P u.1 ∧ P u.2 := by
  induction fs generalizing c with
  | nil => exact fun u hu => absurd hu List.not_mem_nil
  | cons f fs ih =>
    have next := keep f List.mem_cons_self c hc
    intro u hu
    rcases List.mem_cons.1 hu with rfl | hu
    · exact ⟨hc, next⟩
    · exact ih (fun g hg => keep g (List.mem_cons_of_mem f hg)) next u hu

/-- A change the lines may have made: a planned one, or a planned one whose write failed and did not land. -/
def PlannedOrLost (moves : List (Byte × Byte)) (u : Byte × Byte) : Prop :=
  ∃ n, (u.1, n) ∈ moves ∧ (u.2 = n ∨ u.2 = u.1)

theorem PlannedOrLost.of_mem {moves : List (Byte × Byte)} {u : Byte × Byte} (h : u ∈ moves) : PlannedOrLost moves u :=
  ⟨u.2, h, .inl rfl⟩

theorem PlannedOrLost.mono {moves moves' : List (Byte × Byte)} (sub : moves ⊆ moves') {u : Byte × Byte}
    (h : PlannedOrLost moves u) : PlannedOrLost moves' u := by
  obtain ⟨n, mem, moved⟩ := h
  exact ⟨n, sub mem, moved⟩

/-! ### What the events of one operation add to the changes of the control lines -/

section events
variable (b : Board) (final : Byte) (rest : List Event)

/-- A read-modify-write of the control latch is one change. -/
theorem controlMoves_updateEvents (c n : Byte) : controlMoves (b.addr .olatCtrl) final (b.updateEvents c n ++ rest) =
    (c, n) :: controlMoves (b.addr .olatCtrl) final rest := by
  simp [Board.updateEvents, Board.rd, Board.wr, controlMoves]

/-- A read of the latch and a failed write of it are one change, to the word the latch then holds. -/
theorem controlMoves_failedUpdate (c : Byte) :
    controlMoves (b.addr .olatCtrl) final [b.rd .olatCtrl c, b.failed .olatCtrl] = [(c, final)] := by
  simp [Board.rd, Board.failed, controlMoves]

theorem controlMoves_wr (a : ExpAddr) (r : Reg) (v : Byte) :
    controlMoves a final (b.wr r v :: rest) = controlMoves a final rest := by
  simp [Board.wr, controlMoves]

theorem controlMoves_failed (a : ExpAddr) (r : Reg) :
    controlMoves a final (b.failed r :: rest) = controlMoves a final rest := by
  simp [Board.failed, controlMoves]

theorem controlMoves_hold (a : ExpAddr) : controlMoves a final (b.hold :: rest) = controlMoves a final rest := by
  simp [Board.hold, controlMoves]

/-- A read of another register begins no change, whatever follows. -/
theorem controlMoves_rd_other {r : Reg} (hr : r ≠ .olatCtrl) (v : Byte) :
    controlMoves (b.addr .olatCtrl) final (b.rd r v :: rest) = controlMoves (b.addr .olatCtrl) final rest := by
  have other := b.addr_fields_ne hr
  unfold Board.rd
  rcases rest with _ | ⟨e, rest⟩
  · rfl
  · cases e with
    | wr dev reg n => simp [controlMoves, other]
    | fail dev reg => cases rest <;> simp [controlMoves, other]
    | rd dev reg n => simp [controlMoves]
    | wait t => simp [controlMoves]

end events

/-! ### Operations as lists of updates -/

/-- t is s after exactly these updates of the control latch, each completed. -/
structure Updated (fs : List (Byte → Byte)) (s t : State) : Prop where
  board  : t.board = s.board
  latch  : t.latch = updatedWord fs s.latch
  events : ∃ events, t.trace = s.trace ++ events ∧ ∀ final rest,
    controlMoves (s.board.addr .olatCtrl) final (events ++ rest) =
      plannedMoves fs s.latch ++ controlMoves (s.board.addr .olatCtrl) final rest

/-- t is s where an error has ended a sequence of these updates on its way. -/
def UpdatesStopped (fs : List (Byte → Byte)) (s t : State) : Prop :=
  ∃ events, t.trace = s.trace ++ events ∧
    ∀ u ∈ controlMoves (s.board.addr .olatCtrl) t.latch events, PlannedOrLost (plannedMoves fs s.latch) u

/-- The operation makes these updates of the control latch in order, or is ended on its way by an error. -/
def Updates {α : Type} (x : Op α) (fs : Board → List (Byte → Byte)) : Prop :=
  ∀ s, match x s with
    | .ok _ t => Updated (fs s.board) s t
    | .error _ t => UpdatesStopped (fs s.board) s t

namespace Updated

variable {fs gs : List (Byte → Byte)} {s t u : State}

theorem of_same_trace (hb : t.board = s.board) (hl : t.latch = s.latch) (ht : t.trace = s.trace) : Updated [] s t :=
  ⟨hb, hl, [], by simpa using ht, fun _ _ => rfl⟩

/-- One event that is no part of an update. -/
theorem of_event {e : Event} (hb : t.board = s.board) (hl : t.latch = s.latch) (ht : t.trace = s.trace ++ [e])
    (he : ∀ final rest, controlMoves (s.board.addr .olatCtrl) final (e :: rest) =
      controlMoves (s.board.addr .olatCtrl) final rest) : Updated [] s t :=
  ⟨hb, hl, [e], ht, he⟩

theorem trans (first : Updated fs s t) (second : Updated gs t u) : Updated (fs ++ gs) s u := by
  obtain ⟨hb, hl, l, ht, moves⟩ := first
  obtain ⟨hb', hl', k, ht', moves'⟩ := second
  rw [hb, hl] at moves'
  refine ⟨hb'.trans hb, by rw [hl', hl, updatedWord_append], l ++ k, by simp [ht', ht], fun final rest => ?_⟩
  rw [List.append_assoc, moves, moves', plannedMoves_append, List.append_assoc]

/-- Completed updates are a part of any longer list. -/
theorem stopped (h : Updated fs s t) : UpdatesStopped (fs ++ gs) s t := by
  obtain ⟨-, -, l, ht, moves⟩ := h
  refine ⟨l, ht, fun v hv => ?_⟩
  rw [← List.append_nil l, moves, controlMoves, List.append_nil] at hv
  rw [plannedMoves_append]
  exact .of_mem (List.mem_append_left _ hv)

theorem then_stopped (first : Updated fs s t) (second : UpdatesStopped gs t u) : UpdatesStopped (fs ++ gs) s u := by
  obtain ⟨hb, hl, l, ht, moves⟩ := first
  obtain ⟨k, ht', moves'⟩ := second
  rw [hb, hl] at moves'
  refine ⟨l ++ k, by simp [ht', ht], fun v hv => ?_⟩
  rw [moves] at hv
  rw [plannedMoves_append]
  rcases List.mem_append.1 hv with hv | hv
  · exact .of_mem (List.mem_append_left _ hv)
  · exact (moves' v hv).mono (List.subset_append_right _ _)

/-- A completed read-modify-write of the latch. -/
theorem afterUpdate (s : State) (f : Byte → Byte) : Updated [f] s (s.afterUpdate (f s.latch)) :=
  ⟨by simp, by simp [updatedWord], _, s.afterUpdate_trace _, fun _ _ => controlMoves_updateEvents _ _ _ _ _⟩

/-- Nothing is updated by the completed or failed operations of the data port, and by a wait. -/
theorem sequenced : Sequenced (Updated []) fun _ => Updated [] :=
  seqBoth (fun _ => of_same_trace rfl rfl rfl) fun _ _ _ => trans

theorem readFailed (s : State) (r : Reg) : Updated [] s (s.advance.record (s.board.failed r)) :=
  of_event rfl rfl rfl fun _ _ => controlMoves_failed _ _ _ _ _

theorem failedWrite (s : State) {r : Reg} (hr : r ≠ .olatCtrl) (v : Byte) : Updated [] s (s.failedWrite r v) :=
  of_event (s.failedWrite_board r v) (s.failedWrite_expReg_other v hr.symm) (s.failedWrite_trace r v)
    fun _ _ => controlMoves_failed _ _ _ _ _

theorem completedWrite (s : State) {r : Reg} (hr : r ≠ .olatCtrl) (v : Byte) : Updated [] s (s.completedWrite r v) :=
  of_event rfl (s.completedWrite_expReg_other v hr.symm) rfl fun _ _ => controlMoves_wr _ _ _ _ _ _

theorem afterDirection (s : State) (v : Byte) (d : DataDir) : Updated [] s (s.afterDirection v d) :=
  of_event (by simp) (by simp) (s.afterDirection_trace v d) fun _ _ => controlMoves_wr _ _ _ _ _ _

theorem readPins : Both (Updated []) (memRead .inData) :=
  both_read _ (fun s => of_event (by simp) (by simp) (s.afterRead_trace _)
    fun _ _ => controlMoves_rd_other _ _ _ (by decide) _) fun s => readFailed s _

theorem release : Both (Updated []) releaseData :=
  both_release (fun s => afterDirection s _ _) fun s => failedWrite s (by decide) _

theorem readData : Both (Updated []) readData := .bind sequenced release fun _ => readPins

theorem writeData (b : Byte) : Both (Updated []) (writeData b) :=
  both_writeData sequenced.trans b (fun s => afterDirection s _ _) (fun s => failedWrite s (by decide) _)
    (fun s => completedWrite s (by decide) b) fun s => failedWrite s (by decide) b

end Updated

/-- A read of the latch completed and the write after it failed, landed or not (R206). -/
theorem UpdatesStopped.failedUpdate (s : State) (f : Byte → Byte) :
    UpdatesStopped [f] s ((s.afterRead .olatCtrl).failedWrite .olatCtrl (f s.latch)) := by
  refine ⟨[s.board.rd .olatCtrl s.latch, s.board.failed .olatCtrl], by simp, fun u hu => ?_⟩
  rw [controlMoves_failedUpdate, List.mem_singleton, State.failedUpdate_latch] at hu
  subst hu
  refine ⟨f s.latch, List.mem_singleton.2 rfl, ?_⟩
  cases (s.drawAt 1).lands
  · exact .inr rfl
  · exact .inl rfl

/-- The read-modify-write of the latch by a function of its word (R125, R130). -/
def updateLatch (f : Board → Byte → Byte) : Op Unit := do
  let c ← memRead .olatCtrl
  let n ← viewState fun s => f s.board c
  writeControl n

/-- A strobe is one such update, and the hold (R130). -/
theorem strobeSignal_eq_updateLatch (x : Signal) :
    strobeSignal (maskOf [x]) = updateLatch (fun b => invertSignal b.sig x) >>= fun _ => waitHold := by
  rw [strobeSignal_one, updateLatch]
  simp only [bind_assoc]

/-- The updates of ACCESS_READ(sel) (R154). -/
def readUpdates (sel : Selector) (b : Board) : List (Byte → Byte) :=
  [b.selectWord sel, b.levelWord .csn false, b.csOffWord]

/-- The updates of ACCESS_WRITE(sel, v), whose pulse is two (R155). -/
def writeUpdates (sel : Selector) (b : Board) : List (Byte → Byte) :=
  [b.selectWord sel, invertSignal b.sig .csn, invertSignal b.sig .csn]

/-- The updates of a construction at speed n (R160). -/
def constructUpdates (n : LinkSpeed) (b : Board) : List (Byte → Byte) :=
  [b.levelWord .rst true, b.levelWord .csn true, b.levelWord .lspd (speedLevel n), b.levelWord .rst false]

/-- The updates of a Link command (R160 to R183). None is listed for an Interface command. -/
def linkUpdates (i : Instr) (b : Board) : List (Byte → Byte) :=
  match i with
  | .linkinit n => match speedOf n with
    | some speed => constructUpdates speed b
    | none => []
  | .linkinitd => constructUpdates b.raw.defaultLinkSpeed b
  | .datapresent => readUpdates .isrRd b
  | .outputready => readUpdates .osrRd b
  | .read => readUpdates .idrRd b
  | .inten | .intdis => writeUpdates .isrWr b ++ (writeUpdates .osrWr b ++ [b.levelWord .ss false])
  | .write _ => writeUpdates .odrWr b ++ [b.levelWord .ss false]
  | .reset => [invertSignal b.sig .lrst, invertSignal b.sig .lrst]
  | .resetlvl l => [b.levelWord .lrst l]
  | .rddata | .wrdata _ | .setsig _ _ | .strobe _ | .reldata | .rdshadow => []

namespace Updates

variable {α : Type} {fs gs : Board → List (Byte → Byte)}

theorem bind {β : Type} {x : Op α} {f : α → Op β} (hx : Updates x fs) (hf : ∀ a, Updates (f a) gs) :
    Updates (x >>= f) fun b => fs b ++ gs b := by
  intro s
  have first := hx s
  rw [bind_run]
  cases hxs : x s with
  | error e t =>
    rw [hxs] at first
    obtain ⟨l, ht, moves⟩ := first
    exact ⟨l, ht, fun u hu => (moves u hu).mono (by simp [plannedMoves_append])⟩
  | ok a t =>
    rw [hxs] at first
    have second := hf a t
    cases hft : f a t with
    | error e u =>
      simp only [hft, first.board] at second
      simpa only [hft] using first.then_stopped second
    | ok c u =>
      simp only [hft, first.board] at second
      simpa only [hft] using first.trans second

/-- Where the latch is not touched there is no update, however the operation ends. -/
theorem of_both {x : Op α} (h : Both (Updated []) x) : Updates x fun _ => [] := by
  intro s
  have kept := h s
  cases hx : x s <;> rw [hx] at kept
  · exact kept
  · exact kept.stopped (gs := [])

/-- An operation in front that does not touch the latch. -/
theorem after {β : Type} {x : Op α} {f : α → Op β} (hx : Both (Updated []) x) (hf : ∀ a, Updates (f a) gs) :
    Updates (x >>= f) gs := bind (of_both hx) hf

theorem respond (c : Status) (d : Byte) : Updates (respond c d) fun _ => [] :=
  of_both (.respond Updated.sequenced c d)

/-- The response after the updates. -/
theorem then_respond {x : Op α} (hx : Updates x fs) (c : Status) (d : α → Byte) :
    Updates (x >>= fun a => Machine.respond c (d a)) fs := by
  have whole := bind hx fun a => respond c (d a)
  simpa only [List.append_nil] using whole

/-- The read-modify-write, completed or ended at one of its transactions. -/
theorem updateLatch (f : Board → Byte → Byte) : Updates (updateLatch f) fun b => [f b] := by
  intro s
  simp only [Machine.updateLatch, bind_run, viewState_run]
  cases h0 : (s.drawAt 0).fails with
  | true =>
    rw [memRead_fails h0]
    exact (Updated.readFailed s _).stopped (fs := [])
  | false =>
    rw [memRead_quiet h0]
    cases h1 : ((s.afterRead .olatCtrl).drawAt 0).fails with
    | true =>
      simp only [State.answer_olatCtrl, State.afterRead_board, writeControl_fails h1]
      exact .failedUpdate s _
    | false =>
      simp only [State.answer_olatCtrl, State.afterRead_board, writeControl_quiet h1]
      exact .afterUpdate s _

theorem setSignals (m v : Byte) : Updates (setSignals m v) fun b => [mergeLevels b.sig m v] :=
  updateLatch fun b => mergeLevels b.sig m v

theorem strobeSignal (x : Signal) : Updates (strobeSignal (maskOf [x])) fun b => [invertSignal b.sig x] := by
  rw [strobeSignal_eq_updateLatch]
  have waits : Both (Updated []) waitHold := fun s =>
    .of_event rfl rfl rfl fun _ _ => controlMoves_hold s.board _ _ _
  exact bind (updateLatch fun b => invertSignal b.sig x) fun _ => of_both waits

theorem pulse (x : Signal) : Updates (pulse x) fun b => [invertSignal b.sig x, invertSignal b.sig x] :=
  bind (strobeSignal x) fun _ => strobeSignal x

theorem selectRegister (sel : Selector) : Updates (selectRegister sel) fun b => [b.selectWord sel] := fun s =>
  setSignals selectMask (selectLevels (s.board.raw.regsel.levels sel)) s

theorem accessRead (sel : Selector) : Updates (accessRead sel) (readUpdates sel) :=
  bind (selectRegister sel) fun _ => bind (setSignals _ _) fun _ => after Updated.readData fun _ =>
    bind (setSignals _ _) fun _ => of_both (.pure Updated.sequenced _)

theorem accessWrite (sel : Selector) (v : Byte) : Updates (accessWrite sel v) (writeUpdates sel) :=
  bind (selectRegister sel) fun _ => after (Updated.writeData v) fun _ => bind (pulse .csn) fun _ =>
    of_both Updated.release

theorem construct (n : LinkSpeed) : Updates (construct n) (constructUpdates n) :=
  after (fun _ => .of_same_trace rfl rfl rfl) fun _ => bind (setSignals _ _) fun _ => bind (setSignals _ _) fun _ =>
    bind (setSignals _ _) fun _ => after (fun _ => .of_same_trace rfl rfl rfl) fun _ =>
      bind (setSignals _ _) fun _ => of_both fun _ => .of_same_trace rfl rfl rfl

theorem linkinit (n : Byte) : Updates (commandBody (.linkinit n)) (linkUpdates (.linkinit n)) := by
  unfold linkUpdates
  simp only [Machine.commandBody]
  cases speedOf n with
  | none => exact of_both Updated.sequenced.refl
  | some speed => exact then_respond (construct speed) _ _

/-- Every Link command goes through its updates in order. -/
theorem commandBody {i : Instr} (link : needsLink i = true ∨ constructs i = true) :
    Updates (commandBody i) (linkUpdates i) := by
  have check := Updated.sequenced.requireLink
  cases i with
  | rddata | wrdata _ | setsig _ _ | strobe _ | reldata | rdshadow => simp [needsLink, constructs] at link
  | linkinit n => exact linkinit n
  | linkinitd => exact fun s => then_respond (construct s.board.raw.defaultLinkSpeed) .ok (fun _ => 0x00) s
  | datapresent | outputready | read => exact after check fun _ => then_respond (accessRead _) _ _
  | inten | intdis =>
    exact after check fun _ => bind (accessWrite _ _) fun _ => bind (accessWrite _ _) fun _ =>
      then_respond (setSignals _ _) _ _
  | write v => exact after check fun _ => bind (accessWrite _ v) fun _ => then_respond (setSignals _ _) _ _
  | reset => exact after check fun _ => then_respond (pulse _) _ _
  | resetlvl l => exact after check fun _ => then_respond (setSignals _ _) _ _

end Updates

/-- However a Link command ends, the control lines have moved as its updates move them, or not at all where its last
write was lost (R206). -/
theorem linesMoved_planned {i : Instr} {s t : State} (link : needsLink i = true ∨ constructs i = true)
    (run : exec i s = .next t) :
    ∀ u ∈ linesMoved s t, PlannedOrLost (plannedMoves (linkUpdates i s.board) s.latch) u := by
  have updates := Updates.commandBody link s.start
  rw [exec_eq] at run
  cases run
  have moved {r : Response} {w : State} (stopped : UpdatesStopped (linkUpdates i s.board) s.start w) :
      ∀ u ∈ linesMoved s (w.finish r), PlannedOrLost (plannedMoves (linkUpdates i s.board) s.latch) u := by
    obtain ⟨events, trace, moves⟩ := stopped
    rw [linesMoved, newEvents_finish (s := s) r trace]
    exact moves
  cases hbody : commandBody i s.start <;> rw [hbody] at updates
  · have stopped := updates.stopped (gs := [])
    rw [List.append_nil] at stopped
    exact moved stopped
  · exact moved updates

/-! ### What an update may do to chip select and to the register-select lines -/

section lines
variable (b : Board)

/-- The update keeps RS0, RS1 and RNW. -/
def KeepsLines (f : Byte → Byte) : Prop := ∀ c, keepsSelect b c (f c) = true

theorem keepsLines_levelWord {x : Signal} (level : Bool) (h0 : x ≠ .rs0) (h1 : x ≠ .rs1) (hw : x ≠ .rnw) :
    KeepsLines b (b.levelWord x level) := fun c => by
  simp [keepsSelect, wordLevel_levelWord, h0.symm, h1.symm, hw.symm]

theorem keepsLines_invertSignal {x : Signal} (h0 : x ≠ .rs0) (h1 : x ≠ .rs1) (hw : x ≠ .rnw) :
    KeepsLines b (invertSignal b.sig x) := fun c => by
  simp [keepsSelect, wordLevel_invertSignal, h0, h1, hw]

theorem keepsLines_csOffWord : KeepsLines b b.csOffWord := fun c => by
  simp [keepsSelect, wordLevel_csOffWord]

theorem selectSettled_refl (c : Byte) : selectSettled b (c, c) = true := by
  simp [selectSettled, keepsSelect]

/-- Updates that keep the lines settle them whatever chip select does. -/
theorem selectSettled_of_keepsLines {fs : List (Byte → Byte)} (keep : ∀ f ∈ fs, KeepsLines b f) (c : Byte) :
    ∀ u ∈ plannedMoves fs c, selectSettled b u = true := by
  intro u hu
  obtain ⟨f, hf, moved⟩ := mem_plannedMoves hu
  simp [selectSettled, moved, keep f hf u.1]

/-- A SELECT with chip select deasserted, and updates that keep the lines (R151, R187). -/
theorem selectSettled_select {fs : List (Byte → Byte)} (keep : ∀ f ∈ fs, KeepsLines b f) (sel : Selector) {c : Byte}
    (high : wordLevel b c .csn = true) : ∀ u ∈ plannedMoves (b.selectWord sel :: fs) c, selectSettled b u = true := by
  intro u hu
  rcases List.mem_cons.1 hu with rfl | hu
  · simp [selectSettled, wordLevel_selectWord, high]
  · exact selectSettled_of_keepsLines b keep _ u hu

/-- Each strobe of a chip-select pulse keeps the lines (R153). -/
theorem keepsLines_strobe_csn : KeepsLines b (invertSignal b.sig .csn) :=
  keepsLines_invertSignal b (by decide) (by decide) (by decide)

theorem keepsLines_csOn : KeepsLines b (b.levelWord .csn false) :=
  keepsLines_levelWord b _ (by decide) (by decide) (by decide)

theorem keepsLines_ssOff : KeepsLines b (b.levelWord .ss false) :=
  keepsLines_levelWord b _ (by decide) (by decide) (by decide)

/-- The update keeps the lines and does not assert chip select. -/
def KeepsReleased (f : Byte → Byte) : Prop :=
  KeepsLines b f ∧ ∀ c, wordLevel b c .csn = true → wordLevel b (f c) .csn = true

theorem keepsReleased_levelWord {x : Signal} {level : Bool} (h0 : x ≠ .rs0) (h1 : x ≠ .rs1) (hw : x ≠ .rnw)
    (hc : x = .csn → level = true) : KeepsReleased b (b.levelWord x level) := by
  refine ⟨keepsLines_levelWord b level h0 h1 hw, fun c high => ?_⟩
  rw [wordLevel_levelWord]
  split
  · next csn => exact hc csn.symm
  · exact high

theorem keepsReleased_constructUpdates (n : LinkSpeed) : ∀ f ∈ constructUpdates n b, KeepsReleased b f := by
  simp only [constructUpdates, List.forall_mem_cons]
  have rst (level : Bool) : KeepsReleased b (b.levelWord .rst level) :=
    keepsReleased_levelWord b (by decide) (by decide) (by decide) (by simp)
  have csn : KeepsReleased b (b.levelWord .csn true) :=
    keepsReleased_levelWord b (by decide) (by decide) (by decide) (by simp)
  have lspd : KeepsReleased b (b.levelWord .lspd (speedLevel n)) :=
    keepsReleased_levelWord b (by decide) (by decide) (by decide) (by simp)
  exact ⟨rst _, csn, lspd, rst _, by simp⟩

/-- The updates of a command that accesses no adapter register keep the lines, and never assert chip select. -/
theorem linkUpdates_of_noAccess {i : Instr} (none : lastSelect i = none) :
    ∀ f ∈ linkUpdates i b, KeepsReleased b f := by
  cases i with
  | datapresent | outputready | inten | intdis | write _ | read => cases none
  | rddata | wrdata _ | setsig _ _ | strobe _ | reldata | rdshadow => simp [linkUpdates]
  | linkinit n =>
    simp only [linkUpdates]
    cases speedOf n with
    | none => simp
    | some speed => exact keepsReleased_constructUpdates b speed
  | linkinitd => exact keepsReleased_constructUpdates b _
  | reset =>
    have strobe : KeepsReleased b (invertSignal b.sig .lrst) :=
      ⟨keepsLines_invertSignal b (by decide) (by decide) (by decide), fun c high => by
        simp [wordLevel_invertSignal, high]⟩
    simpa [linkUpdates] using strobe
  | resetlvl l =>
    have lrst : KeepsReleased b (b.levelWord .lrst l) :=
      keepsReleased_levelWord b (by decide) (by decide) (by decide) (by simp)
    simpa [linkUpdates] using lrst

/-- The update is a SELECT or keeps the lines. -/
def SelectsOrKeeps (f : Byte → Byte) : Prop := (∃ sel, f = b.selectWord sel) ∨ KeepsLines b f

/-- The updates of a Link command are SELECTs and updates that keep the lines. -/
theorem linkUpdates_selectOrKeep (i : Instr) : ∀ f ∈ linkUpdates i b, SelectsOrKeeps b f := by
  have read (sel : Selector) : ∀ f ∈ readUpdates sel b, SelectsOrKeeps b f := by
    simp [readUpdates, SelectsOrKeeps, keepsLines_csOn, keepsLines_csOffWord]
  have write (sel : Selector) : ∀ f ∈ writeUpdates sel b, SelectsOrKeeps b f := by
    simp [writeUpdates, SelectsOrKeeps, keepsLines_strobe_csn]
  have ssOff : ∀ f ∈ [b.levelWord .ss false], SelectsOrKeeps b f := by
    simp [SelectsOrKeeps, keepsLines_ssOff]
  cases i with
  | rddata | wrdata _ | setsig _ _ | strobe _ | reldata | rdshadow | linkinit _ | linkinitd | reset | resetlvl _ =>
    exact fun f hf => .inr (linkUpdates_of_noAccess b rfl f hf).1
  | datapresent | outputready | read => exact read _
  | inten | intdis => exact List.forall_mem_append.2 ⟨write _, List.forall_mem_append.2 ⟨write _, ssOff⟩⟩
  | write _ => exact List.forall_mem_append.2 ⟨write _, ssOff⟩

/-- From chip select deasserted, no update of a command moves the lines under chip select (R187). -/
theorem linkUpdates_settled (i : Instr) {c : Byte} (high : wordLevel b c .csn = true) :
    ∀ u ∈ plannedMoves (linkUpdates i b) c, selectSettled b u = true := by
  have read (sel : Selector) : ∀ u ∈ plannedMoves (readUpdates sel b) c, selectSettled b u = true :=
    selectSettled_select b (by simp [keepsLines_csOn, keepsLines_csOffWord]) sel high
  have write (sel : Selector) {c : Byte} (high : wordLevel b c .csn = true) :
      ∀ u ∈ plannedMoves (writeUpdates sel b ++ [b.levelWord .ss false]) c, selectSettled b u = true :=
    selectSettled_select b (by simp [keepsLines_strobe_csn, keepsLines_ssOff]) sel high
  cases i with
  | rddata | wrdata _ | setsig _ _ | strobe _ | reldata | rdshadow | linkinit _ | linkinitd | reset | resetlvl _ =>
    exact selectSettled_of_keepsLines b (fun f hf => (linkUpdates_of_noAccess b rfl f hf).1) c
  | datapresent | outputready | read => exact read _
  | write _ => exact write _ high
  | inten | intdis =>
    have restored : updatedWord (writeUpdates .isrWr b) c = b.selectWord .isrWr c := by
      simp [updatedWord, writeUpdates]
    simp only [linkUpdates]
    rw [plannedMoves_append, restored]
    refine List.forall_mem_append.2 ⟨selectSettled_select b (by simp [keepsLines_strobe_csn]) _ high, write _ ?_⟩
    rwa [wordLevel_selectWord_csn]

end lines

end Sys2Proof.Machine

namespace Sys2Proof

open Machine

/-- Settles O39: a planned change is a SELECT, which leaves CSN alone, or keeps the lines, and a lost one is none. -/
theorem chipSelectChangesAlone : Obligations.ChipSelectChangesAlone := by
  unfold Obligations.ChipSelectChangesAlone
  intro s t i link run u hu changed
  obtain ⟨n, planned, landed | lost⟩ := linesMoved_planned link run u hu
  · obtain ⟨f, hf, moved⟩ := mem_plannedMoves planned
    rw [← landed] at moved
    rcases linkUpdates_selectOrKeep s.board i f hf with ⟨sel, rfl⟩ | keeps
    · rw [moved, wordLevel_selectWord_csn] at changed
      exact absurd rfl changed
    · rw [moved]
      exact keeps u.1
  · rw [lost] at changed
    exact absurd rfl changed

/-- Settles O40: the planned changes are settled, a lost one moves nothing, and only an access asserts chip select. -/
theorem selectLinesSettledUnderChipSelect : Obligations.SelectLinesSettledUnderChipSelect := by
  unfold Obligations.SelectLinesSettledUnderChipSelect
  intro s t i link high run u hu
  obtain ⟨n, planned, moved⟩ := linesMoved_planned link run u hu
  constructor
  · have settled := linkUpdates_settled s.board i high (u.1, n) planned
    rcases moved with landed | lost
    · rwa [← landed] at settled
    · rw [show u = (u.1, u.1) from Prod.ext rfl lost]
      exact selectSettled_refl s.board u.1
  · intro none
    obtain ⟨before, after⟩ := plannedMoves_keep (fun f hf => (linkUpdates_of_noAccess s.board none f hf).2) high _
      planned
    rcases moved with landed | lost
    · rwa [landed]
    · rwa [lost]

end Sys2Proof
end

section
/-! The checks of a command and the transaction that ends it (60_exceptions.md R201 to R206, R214): past its checks a
command completes without a `Fail` event, or its last event is its one `Fail` and the response is TransportError. -/

namespace Sys2Proof

open Machine

/-- Settles O4: no command is in progress, and the word taken decodes. -/
theorem stepRunsDecodedCommand : Obligations.StepRunsDecodedCommand := by
  unfold Obligations.StepRunsDecodedCommand
  intro s w rest i idle issued legal
  simp [step, idle, issued, legal]

/-- Settles O5: a step looks at `BUSY` and at the commands issued before it does anything. -/
theorem busyOrIdleBlockHoldsState : Obligations.BusyOrIdleBlockHoldsState := by
  unfold Obligations.BusyOrIdleBlockHoldsState
  rintro s (busy | none)
  · simp [step, busy]
  · simp [step, none]

end Sys2Proof

namespace Sys2Proof.Machine

/-! ### The trace up to a failure -/

/-- The events t's trace holds beyond s's are completed transactions and waits. -/
def FreeOfFails (s t : State) : Prop := ∃ events, t.trace = s.trace ++ events ∧ ∀ e ∈ events, e.isFail = false

/-- t's trace ends with the first `Fail` after s. -/
def StoppedByFail (s t : State) : Prop := ∃ u e, FreeOfFails s u ∧ t.trace = u.trace ++ [e] ∧ e.isFail = true

namespace FreeOfFails

variable {s t u : State}

theorem of_same_trace (h : t.trace = s.trace) : FreeOfFails s t := ⟨[], by simpa using h, by simp⟩

theorem of_event {e : Event} (h : t.trace = s.trace ++ [e]) (he : e.isFail = false) : FreeOfFails s t :=
  ⟨[e], h, by simpa using he⟩

theorem trans (first : FreeOfFails s t) (second : FreeOfFails t u) : FreeOfFails s u := by
  obtain ⟨l, hl, clean⟩ := first
  obtain ⟨k, hk, clean'⟩ := second
  refine ⟨l ++ k, by rw [hk, hl, List.append_assoc], fun e he => ?_⟩
  exact (List.mem_append.1 he).elim (clean e) (clean' e)

theorem not_mem_newEvents (h : FreeOfFails s t) : ¬ ∃ e ∈ newEvents s t, e.isFail = true := by
  obtain ⟨l, hl, clean⟩ := h
  simpa [newEvents, hl] using clean

end FreeOfFails

namespace StoppedByFail

variable {s t u : State}

theorem of_event {e : Event} (h : t.trace = s.trace ++ [e]) (he : e.isFail = true) : StoppedByFail s t :=
  ⟨s, e, .of_same_trace rfl, h, he⟩

theorem after (first : FreeOfFails s t) (second : StoppedByFail t u) : StoppedByFail s u := by
  obtain ⟨v, e, clean, trace, he⟩ := second
  exact ⟨v, e, first.trans clean, trace, he⟩

theorem newEvents (h : StoppedByFail s t) :
    ∃ events e, newEvents s t = events ++ [e] ∧ (∀ x ∈ events, x.isFail = false) ∧ e.isFail = true := by
  obtain ⟨u, e, ⟨l, hl, clean⟩, trace, he⟩ := h
  exact ⟨l, e, by simp [Machine.newEvents, trace, hl], clean, he⟩

theorem mem_newEvents (h : StoppedByFail s t) : ∃ e ∈ Machine.newEvents s t, e.isFail = true := by
  obtain ⟨events, e, whole, -, he⟩ := h.newEvents
  exact ⟨e, by simp [whole], he⟩

/-- Nothing follows the `Fail` that ended a command. -/
theorem last_of_isFail (h : StoppedByFail s t) {before after : List Event} {e : Event}
    (split : Machine.newEvents s t = before ++ e :: after) (he : e.isFail = true) : after = [] := by
  obtain ⟨events, last, whole, clean, -⟩ := h.newEvents
  rcases List.eq_nil_or_concat after with rfl | ⟨inner, x, rfl⟩
  · rfl
  · have inside : events ++ [last] = (before ++ e :: inner) ++ [x] := by simp [← whole, split]
    have events_eq := (List.append_inj' inside rfl).1
    have noFail := clean e (by simp [events_eq])
    rw [he] at noFail
    cases noFail

end StoppedByFail

/-! ### Operations that only a failed transaction ends -/

/-- The operation raises no error but TransportError, and that exactly at a `Fail` event (R206). -/
def EndsOnlyByFail {α : Type} (x : Op α) : Prop :=
  Meets FreeOfFails (fun e s t => e = .transportError ∧ StoppedByFail s t) x

namespace EndsOnlyByFail

theorem sequenced : Sequenced FreeOfFails (fun e s t => e = .transportError ∧ StoppedByFail s t) where
  refl _ := .of_same_trace rfl
  trans _ _ _ := .trans
  error _ _ _ _ first second := ⟨second.1, .after first second.2⟩

theorem read (r : Reg) : EndsOnlyByFail (memRead r) := by
  intro s
  cases hf : (s.drawAt 0).fails
  · rw [memRead_quiet hf]
    exact .of_event (s.afterRead_trace r) rfl
  · rw [memRead_fails hf]
    exact ⟨rfl, .of_event (e := s.board.failed r) rfl rfl⟩

theorem write (r : Reg) (v : Byte) : EndsOnlyByFail (memWrite r v) := by
  intro s
  cases hf : (s.drawAt 0).fails
  · rw [memWrite_quiet hf]
    exact .of_event (s.completedWrite_trace r v) rfl
  · rw [memWrite_fails hf]
    exact ⟨rfl, .of_event (s.failedWrite_trace r v) rfl⟩

theorem bind {α β : Type} {x : Op α} {f : α → Op β} (hx : EndsOnlyByFail x) (hf : ∀ a, EndsOnlyByFail (f a)) :
    EndsOnlyByFail (x >>= f) := Meets.bind sequenced hx hf

theorem view {α : Type} (f : State → α) : EndsOnlyByFail (viewState f) := Meets.view sequenced f

/-- An update of the block's state outside the trace. -/
theorem update {f : State → State} (h : ∀ s, (f s).trace = s.trace) : EndsOnlyByFail (updateState f) :=
  fun s => .of_same_trace (h s)

theorem wait : EndsOnlyByFail waitHold := fun s => .of_event s.waited_trace rfl

theorem control (n : Byte) : EndsOnlyByFail (writeControl n) :=
  bind (write _ n) fun _ => update fun _ => rfl

theorem direction (v : Byte) (d : DataDir) : EndsOnlyByFail (writeDirection v d) :=
  bind (write _ v) fun _ => update fun _ => rfl

theorem release : EndsOnlyByFail releaseData := bind (view _) fun _ => direction _ _

theorem readData : EndsOnlyByFail readData := bind release fun _ => read _

theorem writeData (b : Byte) : EndsOnlyByFail (writeData b) :=
  bind (view _) fun _ => bind (direction _ _) fun _ => write _ b

theorem setSignals (m v : Byte) : EndsOnlyByFail (setSignals m v) :=
  Meets.setSignals sequenced (read _) control m v

/-- A strobe of one signal is past its check. -/
theorem strobe (x : Signal) : EndsOnlyByFail (strobeSignal (maskOf [x])) := by
  rw [strobeSignal_one]
  exact bind (read _) fun _ => bind (view _) fun _ => bind (control _) fun _ => wait

theorem pulse (x : Signal) : EndsOnlyByFail (pulse x) := bind (strobe x) fun _ => strobe x

theorem select (sel : Selector) : EndsOnlyByFail (selectRegister sel) := bind (view _) fun _ => setSignals _ _

theorem accessRead (sel : Selector) : EndsOnlyByFail (accessRead sel) :=
  bind (select sel) fun _ => bind (setSignals _ _) fun _ => bind readData fun _ => bind (setSignals _ _) fun _ =>
    Meets.pure sequenced _

theorem accessWrite (sel : Selector) (b : Byte) : EndsOnlyByFail (accessWrite sel b) :=
  bind (select sel) fun _ => bind (writeData b) fun _ => bind (pulse _) fun _ => release

theorem construct (n : LinkSpeed) : EndsOnlyByFail (construct n) :=
  Meets.construct sequenced setSignals (fun _ _ => .of_same_trace rfl) (fun _ _ => .of_same_trace rfl) n

end EndsOnlyByFail

/-! ### The checks that end a command -/

theorem requireLink_unready {s : State} (h : s.linkReady = false) : requireLink s = .error .notConstructed s := by
  simp [requireLink, h]

/-- A Link command other than construction first requires `LINK_READY` (R203). -/
theorem commandBody_notConstructed {i : Instr} {s : State} (needs : needsLink i = true)
    (unready : s.linkReady = false) : commandBody i s = .error .notConstructed s := by
  cases i with
  | rddata | wrdata _ | setsig _ _ | strobe _ | reldata | rdshadow | linkinit _ | linkinitd => cases needs
  | datapresent | outputready | inten | intdis | write _ | read | reset | resetlvl _ =>
    exact bind_eq_error.2 (.inl (requireLink_unready unready))

/-- LINKINIT's check refuses exactly the bytes that are no speed (R204). -/
theorem argumentOk_linkinit_eq_false {b : Byte} : argumentOk (.linkinit b) = false ↔ speedOf b = none := by
  simp [argumentOk, speedOf_eq_none]

/-- Only LINKINIT and STROBE check an argument (R204). -/
theorem commandBody_invalidArgument {i : Instr} {s : State} (invalid : argumentOk i = false) :
    commandBody i s = .error .invalidArgument s := by
  cases i with
  | linkinit b => simp [commandBody, argumentOk_linkinit_eq_false.1 invalid]
  | strobe m =>
    have many : popcount m ≠ 1 := by simpa [argumentOk] using invalid
    exact bind_eq_error.2 (.inl (by rw [strobeSignal_rejects many, raise_run]))
  | rddata | wrdata _ | setsig _ _ | reldata | rdshadow | linkinitd | datapresent | outputready | inten | intdis
  | write _ | read | reset | resetlvl _ => cases invalid

/-- A check that fails before any primitive leaves nothing but its response (R202). -/
theorem exec_of_refused {i : Instr} {s : State} {e : Status} (h : commandBody i s.start = .error e s.start) :
    exec i s = .next (s.answered (errorResponse e)) := by
  rw [exec_of_error h, State.start_finish_eq_answered]

/-- A word that does not decode leaves nothing but its response (R201). -/
theorem State.illegal_eq_answered (s : State) : s.illegal = s.answered ⟨.illegalCommand, 0x00⟩ := rfl

/-! ### A command past its checks -/

/-- The status a command gives when it completes: RDSHADOW says whether the shadow is known (R140). -/
def completionStatus (s : State) : Instr → Status
  | .rdshadow => if s.shadowValid then .ok else .shadowUnknown
  | _ => .ok

theorem completionStatus_eq_shadowUnknown {s : State} {i : Instr} :
    completionStatus s i = .shadowUnknown ↔ i = .rdshadow ∧ s.shadowValid = false := by
  cases i <;> simp [completionStatus]

theorem completionStatus_cases (s : State) (i : Instr) :
    completionStatus s i = .ok ∨ completionStatus s i = .shadowUnknown := by
  cases i <;> simp [completionStatus]

/-- How a sequence that starts in s and completes with status c ends past its checks: with that status and no `Fail`,
or, where it performs transactions at all, at its one `Fail`. -/
inductive PastChecks (s : State) : Status → EStateM.Result Status State Response → Prop
  | completed (c : Status) (d : Byte) (t : State) : FreeOfFails s t → PastChecks s c (.ok ⟨c, d⟩ t)
  | stopped (t : State) : StoppedByFail s t → PastChecks s .ok (.error .transportError t)

namespace PastChecks

theorem respond (c : Status) (d : Byte) (s : State) : PastChecks s c (respond c d s) :=
  .completed c d s (.of_same_trace rfl)

theorem bind {α : Type} {x : Op α} {f : α → Op Response} (hx : EndsOnlyByFail x)
    (hf : ∀ a t, PastChecks t .ok (f a t)) (s : State) : PastChecks s .ok ((x >>= f) s) := by
  have first := hx s
  rw [bind_run]
  cases hxs : x s with
  | error e t =>
    rw [hxs] at first
    obtain ⟨rfl, stop⟩ := first
    exact .stopped t stop
  | ok a t =>
    rw [hxs] at first
    have second := hf a t
    simp only
    generalize f a t = result at second ⊢
    cases second with
    | completed _ d u clean => exact .completed _ d u (first.trans clean)
    | stopped u stop => exact .stopped u (.after first stop)

/-- An operation and then the response. -/
theorem then_respond {α : Type} {x : Op α} (hx : EndsOnlyByFail x) (d : α → Byte) (s : State) :
    PastChecks s .ok ((x >>= fun a => Machine.respond .ok (d a)) s) :=
  bind hx (fun a => respond .ok (d a)) s

/-- A Link command whose check of `LINK_READY` passes goes on as if it had none. -/
theorem linked {c : Status} {x : Op Response} {s : State} (ready : s.linkReady = true) (hx : PastChecks s c (x s)) :
    PastChecks s c ((requireLink >>= fun _ => x) s) := by
  rwa [bind_run, requireLink_ready ready]

/-- Every command, past the checks of `LINK_READY` and of its argument (R202). -/
theorem commandBody {i : Instr} {s : State} (ready : needsLink i = true → s.linkReady = true)
    (argument : argumentOk i = true) : PastChecks s (completionStatus s i) (commandBody i s) := by
  cases i with
  | rddata => exact then_respond .readData _ s
  | wrdata b => exact then_respond (.writeData b) _ s
  | setsig m v => exact then_respond (.setSignals m v) _ s
  | strobe m =>
    obtain ⟨x, hx⟩ := popcount_one (by simpa [argumentOk] using argument)
    simp only [Machine.commandBody, strobeSignal_named hx]
    exact then_respond (.strobe x) _ s
  | reldata => exact then_respond .release _ s
  | rdshadow =>
    cases valid : s.shadowValid <;> simp only [completionStatus, Machine.commandBody, bind_run, viewState_run, valid]
    · exact respond .shadowUnknown _ s
    · exact respond .ok _ s
  | linkinit b =>
    cases speed : speedOf b with
    | none =>
      rw [argumentOk_linkinit_eq_false.2 speed] at argument
      cases argument
    | some n =>
      simp only [Machine.commandBody, speed]
      exact then_respond (.construct n) _ s
  | linkinitd => exact bind (.view _) (fun n => then_respond (.construct n) _) s
  | datapresent | outputready | read => exact linked (ready rfl) (then_respond (.accessRead _) _ s)
  | inten | intdis =>
    exact linked (ready rfl) (bind (.accessWrite _ _) (fun _ => bind (.accessWrite _ _) fun _ =>
      then_respond (.setSignals _ _) _) s)
  | write b =>
    exact linked (ready rfl) (bind (.accessWrite _ b) (fun _ => then_respond (.setSignals _ _) _) s)
  | reset => exact linked (ready rfl) (then_respond (.pulse _) _ s)
  | resetlvl l => exact linked (ready rfl) (then_respond (.setSignals _ _) _ s)

end PastChecks

/-- A command past its checks gives the status of its completion and its events hold no `Fail`, or, where that status
is OK, it gives TransportError and its last event is its one `Fail`. -/
theorem exec_pastChecks {i : Instr} {s : State} (ready : needsLink i = true → s.linkReady = true)
    (argument : argumentOk i = true) : ∃ t r, exec i s = .next t ∧ t.resp = some r ∧
      (r.status = completionStatus s i ∧ FreeOfFails s t ∨
        completionStatus s i = .ok ∧ r = ⟨.transportError, 0x00⟩ ∧ StoppedByFail s t) := by
  have outcome := PastChecks.commandBody (s := s.start) ready argument
  have same : completionStatus s.start i = completionStatus s i := by cases i <;> rfl
  rw [same] at outcome
  rw [exec_eq]
  generalize completionStatus s i = c, commandBody i s.start = result at outcome ⊢
  cases outcome with
  | completed _ d u clean => exact ⟨_, _, rfl, rfl, .inl ⟨rfl, clean⟩⟩
  | stopped u stop => exact ⟨_, _, rfl, rfl, .inr ⟨rfl, rfl, stop⟩⟩

/-- The status of a command past its checks, by its events and by the shadow (R140, R206). -/
theorem exec_pastChecks_status {i : Instr} {s : State} (ready : needsLink i = true → s.linkReady = true)
    (argument : argumentOk i = true) : ∃ t r, exec i s = .next t ∧ t.resp = some r ∧
      (r.status = .ok ∨ r.status = .shadowUnknown ∨ r.status = .transportError) ∧
      (r.status = .transportError ↔ ∃ e ∈ newEvents s t, e.isFail = true) ∧
      (r.status = .shadowUnknown ↔ i = .rdshadow ∧ s.shadowValid = false) := by
  obtain ⟨t, r, run, resp, ⟨status, clean⟩ | ⟨known, rfl, stop⟩⟩ := exec_pastChecks ready argument
  all_goals refine ⟨t, _, run, resp, ?_⟩
  · rw [status]
    have known := completionStatus_cases s i
    have noTransportError : completionStatus s i ≠ .transportError := by rcases known with h | h <;> simp [h]
    exact ⟨known.imp_right .inl, iff_of_false noTransportError clean.not_mem_newEvents,
      completionStatus_eq_shadowUnknown⟩
  · refine ⟨.inr (.inr rfl), iff_of_true rfl stop.mem_newEvents, ?_⟩
    rw [← completionStatus_eq_shadowUnknown, known]
    decide

/-- Every command either adds no `Fail`, or ends at its one `Fail` with TransportError (R206). -/
theorem exec_failEnds {i : Instr} {s t : State} (run : exec i s = .next t) :
    FreeOfFails s t ∨ StoppedByFail s t ∧ t.resp = some ⟨.transportError, 0x00⟩ := by
  have refused {e : Status} (h : commandBody i s.start = .error e s.start) : FreeOfFails s t := by
    rw [exec_of_refused h] at run
    cases run
    exact .of_same_trace rfl
  by_cases ready : needsLink i = true → s.linkReady = true
  · cases argument : argumentOk i with
    | false => exact .inl (refused (commandBody_invalidArgument argument))
    | true =>
      obtain ⟨u, r, ends, resp, outcome⟩ := exec_pastChecks ready argument
      cases run.symm.trans ends
      rcases outcome with ⟨-, clean⟩ | ⟨-, rfl, stop⟩
      · exact .inl clean
      · exact .inr ⟨stop, resp⟩
  · obtain ⟨needs, unready⟩ := Classical.not_imp.1 ready
    exact .inl (refused (commandBody_notConstructed needs (by simpa using unready)))

/-- A failed control-latch write is the only one that makes the shadow invalid (R206). -/
theorem State.failedWrite_shadowValid_eq_ite (s : State) (r : Reg) (v : Byte) :
    (s.failedWrite r v).shadowValid = if r = .olatCtrl then false else s.shadowValid := by
  rw [State.failedWrite_shadowValid]
  split
  · next h => simp [h]
  · next h => simp [h]

end Sys2Proof.Machine

namespace Sys2Proof

open Machine

/-- Settles O6: a check that fails ends the command in the state it found, and past the checks only a `Fail` event
keeps it from the status of its completion. -/
theorem checksComeInOrder : Obligations.ChecksComeInOrder := by
  unfold Obligations.ChecksComeInOrder
  intro s w rest idle issued
  refine ⟨fun e illegal => ?_, fun i legal => ?_⟩
  · simp [step, idle, issued, illegal, State.illegal_eq_answered]
  · rw [stepRunsDecodedCommand s w rest i idle issued legal]
    refine ⟨fun needs unready => exec_of_refused (commandBody_notConstructed needs unready),
      fun _ invalid => exec_of_refused (commandBody_invalidArgument invalid), fun ready argument => ?_⟩
    exact exec_pastChecks_status (s := s.takeCommand rest) ready argument

/-- Settles O7: the states of the two failed transactions, the rule for a sequence, and the one `Fail` of a command. -/
theorem transportFailureEndsCommand : Obligations.TransportFailureEndsCommand := by
  unfold Obligations.TransportFailureEndsCommand
  refine ⟨fun s r hf => ?_, fun s r v hf => ?_, fun α β x f s t h => bind_eq_error.2 (.inl h),
    fun body s t h => ?_, fun i s t run before e after split fails => ?_⟩
  · exact ⟨_, memRead_fails hf, rfl, rfl, ⟨rfl, rfl⟩, rfl, ⟨rfl, rfl⟩⟩
  · have elsewhere : KeptElsewhere s (s.failedWrite r v) [r] :=
      fun a ha => s.failedWrite_elsewhere r v (ha r (List.mem_singleton_self r))
    exact ⟨_, memWrite_fails hf, s.failedWrite_trace r v, s.failedWrite_expReg r v, elsewhere,
      s.failedWrite_shadow r v, s.failedWrite_shadowValid_eq_ite r v, s.failedWrite_dataDir r v, .failedWrite s r v⟩
  · rw [runCommand, h]
    rfl
  · rcases exec_failEnds run with clean | ⟨stop, resp⟩
    · exact absurd ⟨e, by simp [split], fails⟩ clean.not_mem_newEvents
    · exact ⟨stop.last_of_isFail split fails, resp⟩

end Sys2Proof
end

section
/-! Power-on reset (10_state.md R44; 70_reset_and_hazards.md R240): the state it sets, and that a run starts in the
invariant. -/

namespace Sys2Proof

open Machine

/-- Settles O1: each element is the one `State.reset` gives. -/
theorem resetLeavesPowerOnState : Obligations.ResetLeavesPowerOnState := by
  unfold Obligations.ResetLeavesPowerOnState
  exact ⟨rfl, rfl, rfl, rfl, rfl, rfl, rfl, rfl, rfl⟩

/-- Settles O2: no register has been written, and `SHADOW`, `DATA_DIR` and the Link claim nothing yet. -/
theorem resetMeetsInvariant : Obligations.ResetMeetsInvariant := by
  unfold Obligations.ResetMeetsInvariant
  exact {
    memWf := ⟨.nil, fun _ written => absurd written List.not_mem_nil⟩
    memKeys := fun _ written => absurd written List.not_mem_nil
    shadowLatch := fun valid => by cases valid
    shadowTrace := fun valid => by cases valid
    dirInput := fun input => by cases input
    dirOutput := fun output => by cases output
    linkSpeed := fun ready => by cases ready
    idle := ⟨rfl, rfl⟩
    lastResp := rfl }

end Sys2Proof
end

section
/-! The transactions and the waits of a command that completes (70_reset_and_hazards.md R260): the counts of each
sequence, and their sums. -/

namespace Sys2Proof.Machine

/-- The transactions and the waits in a list of events. -/
def busCounts (events : List Event) : Nat × Nat :=
  (events.countP Event.isTransaction, events.countP fun e => !e.isTransaction)

theorem busCounts_append (l k : List Event) : busCounts (l ++ k) = busCounts l + busCounts k := by
  simp [busCounts]

/-- t is s with events of these counts added to the trace. -/
def Performed (n : Nat × Nat) (s t : State) : Prop := ∃ events, t.trace = s.trace ++ events ∧ busCounts events = n

namespace Performed

variable {m n : Nat × Nat} {s t u : State}

theorem trans (first : Performed m s t) (second : Performed n t u) : Performed (m + n) s u := by
  obtain ⟨l, ht, rfl⟩ := first
  obtain ⟨k, hu, rfl⟩ := second
  exact ⟨l ++ k, by rw [hu, ht, List.append_assoc], busCounts_append l k⟩

/-- Two transactions read and write the latch (R125). -/
theorem afterSet (s : State) (m v : Byte) : Performed (2, 0) s (s.afterSet m v) := ⟨_, s.afterSet_trace m v, rfl⟩

/-- A strobe holds the level it has written (R130). -/
theorem afterStrobe (s : State) (x : Signal) : Performed (2, 1) s (s.afterStrobe x) := ⟨_, s.afterStrobe_trace x, rfl⟩

theorem afterAccessRead (s : State) (sel : Selector) : Performed (8, 0) s (s.afterAccessRead sel) :=
  ⟨_, s.afterAccessRead_trace sel, rfl⟩

theorem afterAccessWrite (s : State) (sel : Selector) (b : Byte) : Performed (9, 2) s (s.afterAccessWrite sel b) :=
  ⟨_, s.afterAccessWrite_trace sel b, rfl⟩

theorem afterConstruct (s : State) (n : LinkSpeed) : Performed (8, 0) s (s.afterConstruct n) :=
  ⟨_, s.afterConstruct_trace n, rfl⟩

/-- Every command past its argument check completes with the counts of the table (R260). -/
theorem completedState {i : Instr} (argument : argumentOk i = true) (s : State) :
    Performed (transactionTable i) s (completedState s i) := by
  cases i with
  | rddata => exact ⟨_, s.afterReadData_trace, rfl⟩
  | wrdata b => exact ⟨_, s.afterWriteData_trace b, rfl⟩
  | setsig m v => exact afterSet s m v
  | strobe m =>
    obtain ⟨x, named⟩ := popcount_one (beq_iff_eq.1 argument)
    simp only [Machine.completedState, named]
    exact afterStrobe s x
  | reldata => exact ⟨_, s.afterRelease_trace, rfl⟩
  | rdshadow => exact ⟨[], (List.append_nil _).symm, rfl⟩
  | linkinit b =>
    cases speed : speedOf b with
    | none => rw [argumentOk_linkinit_eq_false.2 speed] at argument; cases argument
    | some n =>
      simp only [Machine.completedState, speed]
      exact afterConstruct s n
  | linkinitd => exact afterConstruct s _
  | datapresent | outputready | read => exact afterAccessRead s _
  | inten | intdis => exact ((afterAccessWrite s _ _).trans (afterAccessWrite _ _ _)).trans (afterSet _ _ _)
  | write b => exact (afterAccessWrite s _ b).trans (afterSet _ _ _)
  | reset => exact (afterStrobe s _).trans (afterStrobe _ _)
  | resetlvl l => exact afterSet s _ _

end Performed

end Sys2Proof.Machine

namespace Sys2Proof

open Machine

/-- Settles O42: a command that answered OK left the completed state of its sequence. -/
theorem transactionCounts : Obligations.TransactionCounts := by
  unfold Obligations.TransactionCounts
  intro s t i run ok
  obtain ⟨-, -, argument, rfl⟩ := exec_answeredOk run ok
  obtain ⟨events, trace, counts⟩ := Performed.completedState argument s.start
  rw [newEvents_finish (s := s) _ trace]
  exact counts

end Sys2Proof
end

section
/-! Bus contention in a Link command that completes (41_link_protocol.md R154, R155; 70_reset_and_hazards.md R245, R251;
93_implementation_defined.md I11; log 6): which sequences can set the flag, and that from a booted state none does. -/

namespace Sys2Proof.Machine

/-! ### The flag after each sequence -/

/-- The control word c asserts chip select for a read while the data port's direction is d (I11). -/
def contendingWord (b : Board) (c : Byte) (d : DataDir) : Bool :=
  !wordLevel b c .csn && wordLevel b c .rnw && d != .input

@[simp] theorem contendingWord_input (b : Board) (c : Byte) : contendingWord b c .input = false := by
  simp [contendingWord]

section flag
variable (s : State)

@[simp] theorem State.afterUpdate_contention (n : Byte) :
    (s.afterUpdate n).contention = (s.contention || contendingWord s.board n s.dataDir) :=
  (s.afterRead .olatCtrl).afterControl_contention n

@[simp] theorem State.afterSet_contention (m v : Byte) : (s.afterSet m v).contention =
    (s.contention || contendingWord s.board (mergeLevels s.board.sig m v s.latch) s.dataDir) :=
  s.afterUpdate_contention _

@[simp] theorem State.afterSelect_contention (sel : Selector) : (s.afterSelect sel).contention =
    (s.contention || contendingWord s.board (s.board.selectWord sel s.latch) s.dataDir) :=
  s.afterSet_contention _ _

@[simp] theorem State.afterStrobe_contention (x : Signal) : (s.afterStrobe x).contention =
    (s.contention || contendingWord s.board (invertSignal s.board.sig x s.latch) s.dataDir) :=
  s.afterUpdate_contention _

/-- A pulse passes the inverted word and comes back to its own (R153). -/
@[simp] theorem State.afterPulse_contention (x : Signal) : (s.afterPulse x).contention =
    (s.contention || contendingWord s.board (invertSignal s.board.sig x s.latch) s.dataDir ||
      contendingWord s.board s.latch s.dataDir) := by
  simp [State.afterPulse]

/-- To make the port an input is never contention. -/
@[simp] theorem State.afterRelease_contention : s.afterRelease.contention = s.contention := by
  simp [State.afterRelease, State.afterDirection_contention]

@[simp] theorem State.afterReadData_contention : s.afterReadData.contention = s.contention :=
  s.afterRelease_contention

@[simp] theorem State.afterWriteData_contention (b : Byte) : (s.afterWriteData b).contention =
    (s.contention || contendingWord s.board s.latch .output) :=
  s.afterDirection_contention _ _

/-- A read access asserts chip select for a read before it makes the port an input (R154, R251). -/
@[simp] theorem State.afterAccessRead_contention (sel : Selector) : (s.afterAccessRead sel).contention =
    (s.contention || ((s.board.raw.regsel.levels sel).rnw && s.dataDir != .input)) := by
  simp [State.afterAccessRead, contendingWord, mergeLevels_low, wordLevel_levelWord, wordLevel_selectWord]
  cases wordLevel s.board s.latch .csn <;> simp

/-- A write access asserts chip select while the block drives the port (R155). -/
@[simp] theorem State.afterAccessWrite_contention (sel : Selector) (b : Byte) : (s.afterAccessWrite sel b).contention =
    (s.contention || (s.board.raw.regsel.levels sel).rnw) := by
  have driven : (DataDir.output != .input) = true := rfl
  simp [State.afterAccessWrite, contendingWord, wordLevel_invertSignal, wordLevel_selectWord, driven]
  cases wordLevel s.board s.latch .csn <;> cases (s.board.raw.regsel.levels sel).rnw <;> simp

end flag

/-! ### The steady state of R251 -/

/-- The Link booted, and the run free of contention so far (R245, R251). -/
def State.steady (s : State) : Prop := s.booted ∧ s.contention = false

namespace State.steady

variable {s : State}

theorem afterAccessRead (h : s.steady) (sel : Selector) : (s.afterAccessRead sel).steady := by
  obtain ⟨⟨ready, input, -⟩, clear⟩ := h
  have released : (s.afterAccessRead sel).level .csn = true := by
    simp [State.level_eq_wordLevel, wordLevel_csOffWord]
  exact ⟨⟨(s.afterAccessRead_linkReady sel).trans ready, s.afterAccessRead_dataDir sel, released⟩,
    by simp [clear, input]⟩

theorem afterAccessWrite (h : s.steady) {sel : Selector} (write : (s.board.raw.regsel.levels sel).rnw = false)
    (b : Byte) : (s.afterAccessWrite sel b).steady := by
  obtain ⟨⟨ready, -, high⟩, clear⟩ := h
  have released : (s.afterAccessWrite sel b).level .csn = true := by
    simpa [State.level_eq_wordLevel, wordLevel_selectWord] using high
  exact ⟨⟨(s.afterAccessWrite_linkReady sel b).trans ready, s.afterAccessWrite_dataDir sel b, released⟩,
    by simp [clear, write]⟩

/-- One signal other than chip select is given a level. -/
theorem afterSet (h : s.steady) {x : Signal} (hx : x ≠ .csn) (level : Bool) :
    (s.afterSet (maskOf [x]) (levelMask x level)).steady := by
  obtain ⟨⟨ready, input, high⟩, clear⟩ := h
  have word : mergeLevels s.board.sig (maskOf [x]) (levelMask x level) s.latch = s.board.levelWord x level s.latch := rfl
  have released : (s.afterSet (maskOf [x]) (levelMask x level)).level .csn = true := by
    simpa [State.level_eq_wordLevel, word, wordLevel_levelWord, hx.symm] using high
  exact ⟨⟨(s.afterSet_linkReady _ _).trans ready, (s.afterSet_dataDir _ _).trans input, released⟩,
    by simp [clear, input]⟩

theorem afterPulse (h : s.steady) (x : Signal) : (s.afterPulse x).steady := by
  obtain ⟨⟨ready, input, high⟩, clear⟩ := h
  have released : (s.afterPulse x).level .csn = true := by
    simpa [State.level_eq_wordLevel] using high
  exact ⟨⟨(s.afterPulse_linkReady x).trans ready, (s.afterPulse_dataDir x).trans input, released⟩,
    by simp [clear, input]⟩

end State.steady

end Sys2Proof.Machine

namespace Sys2Proof

open Machine

/-- Settles O43: each sequence of a Link command keeps the steady state. -/
theorem bootedLinkStaysFreeOfContention : Obligations.BootedLinkStaysFreeOfContention := by
  unfold Obligations.BootedLinkStaysFreeOfContention
  intro s t i odr isr osr needs booted clear run ok
  obtain ⟨-, -, -, rfl⟩ := exec_answeredOk run ok
  have start : s.start.steady := ⟨booted, clear⟩
  suffices completed : (completedState s.start i).steady from completed
  cases i with
  | rddata | wrdata _ | setsig _ _ | strobe _ | reldata | rdshadow | linkinit _ | linkinitd => cases needs
  | datapresent | outputready | read => exact start.afterAccessRead _
  | inten | intdis =>
    exact ((start.afterAccessWrite isr _).afterAccessWrite (by simpa using osr) _).afterSet (x := .ss) (by decide) false
  | write b => exact (start.afterAccessWrite odr b).afterSet (x := .ss) (by decide) false
  | reset => exact start.afterPulse .lrst
  | resetlvl l => exact start.afterSet (by decide) l

/-- Settles O44: the one read access of the command sets the flag. -/
theorem readAccessContentionIsFlagged : Obligations.ReadAccessContentionIsFlagged := by
  unfold Obligations.ReadAccessContentionIsFlagged
  intro s t i sel hi access read notInput run ok
  obtain ⟨-, -, -, rfl⟩ := exec_answeredOk run ok
  have completed : completedState s.start i = s.start.afterAccessRead sel := by
    rcases hi with rfl | rfl | rfl <;> cases access <;> rfl
  simp [completed, read, notInput]

end Sys2Proof
end
